-- ==== Sys2Proof/Word.lean ====
section
/-! DEFINITION. The word types and fixed sizes of the HT600 decoder FSM (00_scope.md R6, 10_state.md R20).
The spec's `W`-bit values are naturals in `[0, 2^W)` (R7). Registers of a fixed width are bit vectors here; values
whose width is the parameter `W_TS`, and the thresholds they are compared with, are naturals with a stated bound. -/

namespace Sys2Proof

/-- A stored half-period: `PERIOD_W = 16` bits (R6, R23, R24). -/
abbrev Period := BitVec 16

/-- `PERIOD_MAX` (R6). -/
abbrev periodMax : Nat := 65535

/-- A bit buffer: 24 positions, position `k` being bit `k` (R40). -/
abbrev BitBuf := BitVec 24

/-- The response port `rsp` (R51). -/
abbrev Rsp := BitVec 16

/-- The raw symbol value, a bit (R9): `false` is symbol 0, `true` is symbol 1. -/
abbrev Symbol := Bool

/-- Sync bits of a frame (R6). -/
abbrev syncBits : Nat := 2

/-- `FRAME_BITS`: 2 sync bits and 18 payload bits (R6). -/
abbrev frameBits : Nat := 20

/-- Payload bits that the accessors expose (R6). -/
abbrev exposedBits : Nat := 16

end Sys2Proof
end

