-- ==== Sys2Proof/Config.lean ====
section
/-! DEFINITION. What an implementation fixes: the configuration registers `cfg` with the timestamp width `W_TS`
(00_scope.md R6, 10_state.md R28, 40_construction.md R75), and the inputs of a construction (40_construction.md R70).
The spec decides every value an instruction writes, so there is no free value here. -/

namespace Sys2Proof

/-- The default timestamp width (R6, D2). -/
abbrev defaultWTs : Nat := 32

/-- The configuration of one instance (R28), as the six naturals of R75, and the parameter `W_TS` (R6).
`Machine.cfgValid` is R74, which bounds the five window thresholds by 16 bits and the noise floor by `W_TS` bits. -/
structure Cfg where
  /-- `W_TS`: width of a timestamp in bits. -/
  wTs : Nat
  /-- Lowest duration of a short pulse, inclusive. -/
  shortMin : Nat
  /-- Highest duration of a short pulse, inclusive. -/
  shortMax : Nat
  /-- Lowest duration of a long pulse, inclusive. -/
  longMin : Nat
  /-- Highest duration of a long pulse, inclusive. -/
  longMax : Nat
  /-- A low half-period strictly greater than this is a pilot low. -/
  pilotMin : Nat
  /-- An edge whose delta is strictly less than this is rejected as noise. -/
  noiseFloor : Nat
  deriving DecidableEq, Repr

/-- The configuration of the spec's worked example (90_conflicts.md C2), which 95_test_vectors.md uses as its default,
at the default width. It is the configuration of `State.reset`: DESIGN CHOICE, unsafe (log 2, and log 1 for the width). -/
def exampleCfg : Cfg :=
  { wTs := defaultWTs, shortMin := 91, shortMax := 169, longMin := 181, longMax := 337, pilotMin := 3231, noiseFloor := 50 }

/-- The inputs of a construction, exact rationals (R70). -/
structure ConstructInputs where
  /-- Oscillator-derived base-period constant, in kHz. -/
  foscKhz : ℚ
  /-- Tolerance as a fraction. -/
  tolerance : ℚ
  /-- Tick resolution, in microseconds per tick. -/
  tickLength : ℚ
  /-- Noise-filter duration, in microseconds. -/
  noiseFilter : ℚ
  deriving DecidableEq, Repr

end Sys2Proof
end

