-- ==== Sys2Proof/Syntax.lean ====
section
/-! DEFINITION. The commands of the block, one constructor per row of the opcode table (30_encoding.md R52). -/

namespace Sys2Proof

/-- A command with its operands decoded (R52, R53). A timestamp is a natural; `Instr.wellFormed` bounds it by `W_TS` bits. -/
inductive Instr where
  /-- NOP (R113). -/
  | nop
  /-- EDGE.R, a rising edge at `ts` (R85). -/
  | edgeR (ts : Nat)
  /-- EDGE.F, a falling edge at `ts` (R86). -/
  | edgeF (ts : Nat)
  /-- RESET (R120). -/
  | reset
  /-- IS_READY (R110). -/
  | isReady
  /-- VALUE_BITS (R111). -/
  | valueBits (zFill : Bool)
  /-- Z_MASK (R112). -/
  | zMask (zIsOne : Bool)
  deriving DecidableEq, Repr

end Sys2Proof
end

