-- ==== Sys2Proof/WellFormed.lean ====
section
/-! DEFINITION. The one check an instruction's operands need: "`<ts>` must fit in `W_TS` bits" (30_encoding.md R56). -/

namespace Sys2Proof

/-- `ts` is a `W_TS`-bit natural (R7, R53, R56). -/
def tsFits (wTs ts : Nat) : Bool := decide (ts < 2 ^ wTs)

/-- An instruction is well formed at width `wTs` when its timestamp, if it has one, fits in `W_TS` bits. -/
def Instr.wellFormed (wTs : Nat) (i : Instr) : Bool :=
  match i with
  | .nop => true
  | .edgeR ts => tsFits wTs ts
  | .edgeF ts => tsFits wTs ts
  | .reset => true
  | .isReady => true
  | .valueBits _ => true
  | .zMask _ => true

end Sys2Proof
end

