-- ==== Sys2Proof/Decode.lean ====
section
/-! DEFINITION. Decoding a command word, total on every natural, and encoding a command (30_encoding.md R50 to R56).
Fields are read by the slices R50 names, so bits above `W_TS + 3` are never read (log 6). -/

namespace Sys2Proof

/-- Why a word is no command: its opcode is reserved (R54). -/
inductive DecodeReject where
  /-- `op` is 110 or 111. -/
  | reservedOpcode
  deriving DecidableEq, Repr

/-- `cmd[2:0]` (R50). -/
def opField (w : Nat) : Nat := w % 8

/-- `cmd[3]` (R50), with 1 read as true (R53). -/
def argField (w : Nat) : Bool := decide (w / 8 % 2 = 1)

/-- `cmd[W_TS+3:4]` (R50): an unsigned `W_TS`-bit number, neither extended nor scaled (R53). -/
def tsField (wTs : Nat) (w : Nat) : Nat := w / 16 % 2 ^ wTs

/-- The decoder of R52: `op` first, then for `op = 001` the level. Ignored fields are not looked at (R53). -/
def decode (wTs : Nat) (w : Nat) : Except DecodeReject Instr :=
  match opField w with
  | 0 => .ok .nop
  | 1 => if argField w then .ok (.edgeR (tsField wTs w)) else .ok (.edgeF (tsField wTs w))
  | 2 => .ok .reset
  | 3 => .ok .isReady
  | 4 => .ok (.valueBits (argField w))
  | 5 => .ok (.zMask (argField w))
  | _ => .error .reservedOpcode

/-- The word `{ts, arg, op}` (R56). -/
def cmdWord (ts : Nat) (arg : Bool) (op : Nat) : Nat := 16 * ts + 8 * arg.toNat + op

/-- The encoder of R52 and R56, with every ignored field 0. -/
def encode (i : Instr) : Nat :=
  match i with
  | .nop => cmdWord 0 false 0
  | .edgeR ts => cmdWord ts true 1
  | .edgeF ts => cmdWord ts false 1
  | .reset => cmdWord 0 false 2
  | .isReady => cmdWord 0 false 3
  | .valueBits zFill => cmdWord 0 zFill 4
  | .zMask zIsOne => cmdWord 0 zIsOne 5

/-- The command that the decoder reads, at the default `W_TS = 32` of the opcode table, from a table word of `nbits` bits
(36 bits of command, in whole bytes). -/
def decodeTableWord (nbits w : Nat) : Option Instr :=
  (decode defaultWTs (w % 2 ^ nbits)).toOption

end Sys2Proof
end

