-- ==== Sys2Proof/Machine/State.lean ====
section
/-! DEFINITION. The state of one instance: the dynamic state of 10_state.md R20, the configuration of R28, the response
port of 30_encoding.md R51, and the command words presented on the port `cmd` and not yet executed. -/

namespace Sys2Proof.Machine

/-- The control state of the FSM (R21). -/
inductive FsmState where
  /-- No frame is in progress. -/
  | idle
  /-- A frame is in progress. -/
  | reading
  /-- A frame is complete; every EDGE is ignored. -/
  | done
  deriving DecidableEq, Repr

/-- The hardware encoding of `state`: Idle 0, Reading 1, Done 2; code 3 is never reached (R21, D24). -/
def FsmState.code : FsmState → BitVec 2
  | .idle => 0
  | .reading => 1
  | .done => 2

/-- The state of one instance. -/
structure State where
  /-- The configuration registers (R28); no command writes them (R76). -/
  cfg : Cfg
  /-- `state` (R21). -/
  state : FsmState
  /-- `last_event_time` (R22), a `W_TS`-bit natural. -/
  lastEventTime : Nat
  /-- `period_low` (R23). -/
  periodLow : Period
  /-- `period_high` (R24). -/
  periodHigh : Period
  /-- `bit_index` (R25). -/
  bitIndex : BitVec 5
  /-- `half_symbol_pending` (R26). -/
  halfSymbolPending : Bool
  /-- `pending_symbol` (R27). -/
  pendingSymbol : Symbol
  /-- `value_buf` (R40). -/
  valueBuf : BitBuf
  /-- `z_buf` (R40). -/
  zBuf : BitBuf
  /-- `rsp`: the response of the most recently executed command (R51). -/
  rsp : Rsp
  /-- The command words presented on the port and not yet executed, first first (R46, R51). The model's own field (log 4). -/
  cmds : List Nat
  deriving DecidableEq, Repr

/-- A fault: the machine stops. The block has none (60_exceptions.md R130, R134; 93_implementation_defined.md section 1: "No
behaviour of this block is modelled as `fault` or `stuck`"), so the type has no constructor: safe, and nothing raises it. -/
inductive Fault where
  deriving DecidableEq, Repr

/-- The refusals of 60_exceptions.md R133: the model gives the input no meaning. Each is safe: a claim may become unprovable. -/
inductive Refusal where
  /-- Raised by a construction with inputs outside R70 or a configuration failing R74, and by every command to an instance
  whose configuration fails R74, since no such instance is created (R133; log 8). Safe. -/
  | configInvalid
  /-- Raised by a step whose command word has `op` 110 or 111 (R54, R133; log 9). Safe. -/
  | reservedOpcode
  /-- Raised by a command applied to a state outside the ranges of R20 or the invariants of R32 (R133, U9; log 7). Safe. -/
  | illFormedState
  /-- Raised by an arm of `exec` that has no meaning yet. No arm is left so. Safe. -/
  | notModelled (mnemonic : String)
  deriving DecidableEq, Repr

/-- The construction (power-on) state of an instance with configuration `c` (70_reset_and_hazards.md R150, 10_state.md R20).
The spec states no value of `rsp` before the first command: 0 is a DESIGN CHOICE, unsafe (log 3). No command is presented. -/
def State.initial (c : Cfg) : State :=
  { cfg := c
    state := .idle
    lastEventTime := 0
    periodLow := 0
    periodHigh := 0
    bitIndex := 0
    halfSymbolPending := false
    pendingSymbol := false
    valueBuf := 0
    zBuf := 0
    rsp := 0
    cmds := [] }

/-- The machine right after power-on: the construction state (R150) of the configuration that log 2 names. -/
def State.reset : State := State.initial exampleCfg

end Sys2Proof.Machine
end

