-- ==== Sys2Proof/Machine/Flags.lean ====
section
/-! DEFINITION. The status bits (10_state.md R29, R30). The block has no condition codes: its only flag with a computation is
the continuous output `ready`; the other mode bit, `half_symbol_pending`, is a field of State. -/

namespace Sys2Proof.Machine

/-- The continuous output `ready = (state == Done)` (R29, D20). -/
def ready (s : State) : Bool := decide (s.state = .done)

/-- `zext_16(ready)`, the response of IS_READY (R55, R110). -/
def readyRsp (s : State) : Rsp := (BitVec.ofBool (ready s)).setWidth 16

end Sys2Proof.Machine
end

