-- ==== Sys2Proof/Machine/Construct.lean ====
section
/-! DEFINITION. Construction: the thresholds derived from rational inputs, the validity of a configuration, and the two ways an
instance comes to exist (40_construction.md R70 to R76; 70_reset_and_hazards.md R150). Not a command. -/

namespace Sys2Proof.Machine

/-- R74: every window threshold fits 16 bits, the chain is strict, the noise floor fits `W_TS` bits; and `W_TS` is at least 1
(D2; log 8). DESIGN CHOICE (log 13): validity is R74's "valid iff" and nothing more, so that a configuration with
`pilot_min = 65535` is valid even where R73 clamped `pilot_min` to it, which R74's last sentence calls refused. -/
def cfgValid (c : Cfg) : Bool :=
  decide (1 ≤ c.wTs ∧
    (c.shortMin ≤ 65535 ∧ c.shortMax ≤ 65535 ∧ c.longMin ≤ 65535 ∧ c.longMax ≤ 65535 ∧ c.pilotMin ≤ 65535) ∧
    (c.shortMin < c.shortMax ∧ c.shortMax < c.longMin ∧ c.longMin < c.longMax ∧ c.longMax < c.pilotMin) ∧
    c.noiseFloor ≤ 2 ^ c.wTs - 1)

/-- The domain of the inputs (R70). -/
def inputsInDomain (x : ConstructInputs) : Bool :=
  decide (0 < x.foscKhz ∧ (0 ≤ x.tolerance ∧ x.tolerance < 1) ∧ 0 < x.tickLength ∧ 0 ≤ x.noiseFilter)

/-- A percentage tolerance is divided by 100 before use (R70). -/
def toleranceOfPercent (p : ℚ) : ℚ := p / 100

/-- The base symbol period `T`, in ticks (R71). -/
def symbolPeriod (x : ConstructInputs) : ℚ := (33000 / x.foscKhz) / x.tickLength

/-- `short_lo_q` (R72). -/
def shortLoQ (x : ConstructInputs) : ℚ := symbolPeriod x * (1 - x.tolerance)

/-- `short_hi_q` (R72). -/
def shortHiQ (x : ConstructInputs) : ℚ := symbolPeriod x * (1 + x.tolerance)

/-- `long_lo_q` (R72). -/
def longLoQ (x : ConstructInputs) : ℚ := 2 * symbolPeriod x * (1 - x.tolerance)

/-- `long_hi_q` (R72). -/
def longHiQ (x : ConstructInputs) : ℚ := 2 * symbolPeriod x * (1 + x.tolerance)

/-- `pilot_q` (R72). -/
def pilotQ (x : ConstructInputs) : ℚ := 36 * symbolPeriod x * (1 - x.tolerance)

/-- `noise_q` (R72). -/
def noiseQ (x : ConstructInputs) : ℚ := x.noiseFilter / x.tickLength

/-- The integer thresholds of R73 (D6), at timestamp width `wTs`. A clamp of `pilot_min` leaves no trace in the result: whether
the configuration is refused is for `cfgValid` alone to say (DESIGN CHOICE, log 13). -/
def deriveCfg (wTs : Nat) (x : ConstructInputs) : Cfg :=
  { wTs := wTs
    shortMin := ⌈shortLoQ x⌉₊
    shortMax := min ⌊shortHiQ x⌋₊ 65535
    longMin := ⌈longLoQ x⌉₊
    longMax := min ⌊longHiQ x⌋₊ 65535
    pilotMin := min ⌊pilotQ x⌋₊ 65535
    noiseFloor := ⌈noiseQ x⌉₊ }

/-- Construction from a direct configuration (R75): the construction state (R150), or a refusal (R74, R133). -/
def constructDirect (c : Cfg) : Host.Outcome State Fault Refusal :=
  if cfgValid c then .next (State.initial c) else .refused .configInvalid

/-- Construction from the inputs of R70: inputs outside their domain are refused (R70, R133). -/
def construct (wTs : Nat) (x : ConstructInputs) : Host.Outcome State Fault Refusal :=
  if inputsInDomain x then constructDirect (deriveCfg wTs x) else .refused .configInvalid

end Sys2Proof.Machine
end

