-- ==== Sys2Proof/Machine/Operands.lean ====
section
/-! DEFINITION. What an EDGE command makes of its operand `ts`: the wraparound delta and the saturated half-period
(41_edge_intake.md R82, R84), and the window predicates a half-period is tested with (40_construction.md R77). -/

namespace Sys2Proof.Machine

/-- `(ts - last) mod 2^W_TS`: the natural in `[0, 2^W_TS)` that is the difference modulo `2^W_TS` (R7, R82). -/
def delta (wTs ts last : Nat) : Nat := (((ts : Int) - (last : Int)) % ((2 ^ wTs : Nat) : Int)).toNat

/-- `min(delta, 65535)` as a 16-bit half-period (R84). -/
def saturate (d : Nat) : Period := BitVec.ofNat 16 (min d periodMax)

/-- `inShort(p)`, closed at both ends (R77, D5). -/
def inShort (c : Cfg) (p : Nat) : Bool := decide (c.shortMin ≤ p ∧ p ≤ c.shortMax)

/-- `inLong(p)`, closed at both ends (R77, D5). -/
def inLong (c : Cfg) (p : Nat) : Bool := decide (c.longMin ≤ p ∧ p ≤ c.longMax)

/-- `isPilot(p)`, strict (R77). -/
def isPilot (c : Cfg) (p : Nat) : Bool := decide (c.pilotMin < p)

end Sys2Proof.Machine
end

