-- ==== Sys2Proof/Machine/Ops.lean ====
section
/-! DEFINITION. The named operations over the buffers and the registers that the commands are built from (20_memory.md R40 to
R43; 41_edge_intake.md R83 to R97). Each writes exactly the fields its rule lists.
The block takes no exception and returns from none (60_exceptions.md R130, R137): what it does with bad input is `abort`. -/

namespace Sys2Proof.Machine

/-! ## The bit buffers -/

/-- `BufRead(buf, k)` (R40). -/
def bufRead (buf : BitBuf) (k : Nat) : Bool := buf.getLsbD k

/-- `BufWrite(buf, k, b)`: position `k` becomes `b`, the others are unchanged (R40). -/
def bufWrite (buf : BitBuf) (k : Nat) (b : Bool) : BitBuf :=
  if b then buf ||| BitVec.twoPow 24 k else buf &&& ~~~ (BitVec.twoPow 24 k)

/-- Byte `j` of the packed view: position `k` is bit `k mod 8` of byte `k / 8` (R43, D23). No command shows it. -/
def packedByte (buf : BitBuf) (j : Nat) : BitVec 8 := buf.extractLsb' (8 * j) 8

/-- A logical payload bit (R41). -/
inductive Tri where
  /-- Logical 0. -/
  | zero
  /-- Logical 1. -/
  | one
  /-- Z, floating. -/
  | floating
  deriving DecidableEq, Repr

/-- The bit stored in `value_buf` for a payload bit; 0 for Z (R95, D12). -/
def triValue : Tri → Bool
  | .zero => false
  | .one => true
  | .floating => false

/-- The bit stored in `z_buf` for a payload bit (R95). -/
def triZ : Tri → Bool
  | .zero => false
  | .one => false
  | .floating => true

/-- The tri-state image of a stored position, from `z_buf[k]` and `value_buf[k]`; the pair (1,1) has none (R41). -/
def triOf (z v : Bool) : Option Tri :=
  match z, v with
  | false, false => some .zero
  | false, true => some .one
  | true, false => some .floating
  | true, true => none

/-! ## Register writes -/

/-- `rsp <- r` (R51). -/
def respond (r : Rsp) (s : State) : State := { s with rsp := r }

/-- `last_event_time <- ts` (R83). -/
def stamp (ts : Nat) (s : State) : State := { s with lastEventTime := ts }

/-- `period_low <- p` (R85). -/
def setLow (p : Period) (s : State) : State := { s with periodLow := p }

/-- `period_high <- p` (R86). -/
def setHigh (p : Period) (s : State) : State := { s with periodHigh := p }

/-- Entering `Reading` on a pilot (R87). The buffers and `pending_symbol` are not written. -/
def enterReading (s : State) : State :=
  { s with state := .reading, bitIndex := 0, halfSymbolPending := false }

/-- `Resync()` (R90, D10): `state` stays `Reading`. -/
def resync (s : State) : State := { s with bitIndex := 0, halfSymbolPending := false }

/-- `Abort()` (R91, D11): the buffers, `pending_symbol`, the periods and `last_event_time` are not written. -/
def abort (s : State) : State :=
  { s with state := .idle, bitIndex := 0, halfSymbolPending := false }

/-- The first half of a pair is captured (R92). -/
def capture (b : Symbol) (s : State) : State :=
  { s with pendingSymbol := b, halfSymbolPending := true }

/-- `half_symbol_pending <- 0` (R93). -/
def clearHalf (s : State) : State := { s with halfSymbolPending := false }

/-- `bit_index <- bit_index + 1` (R94, R96). -/
def advance (s : State) : State := { s with bitIndex := s.bitIndex + 1 }

/-- Both buffer writes of R96, at position `bit_index`. -/
def store (t : Tri) (s : State) : State :=
  { s with
    valueBuf := bufWrite s.valueBuf s.bitIndex.toNat (triValue t)
    zBuf := bufWrite s.zBuf s.bitIndex.toNat (triZ t) }

/-- Frame completion (R97): `Done` once `bit_index` is 20. -/
def complete (s : State) : State :=
  if s.bitIndex.toNat = frameBits then { s with state := .done } else s

/-! ## Pilot detection and classification -/

/-- `PilotCheck()` (R87); when the test fails nothing changes (R88). -/
def pilotCheck (s : State) : State :=
  if isPilot s.cfg s.periodLow.toNat && inShort s.cfg s.periodHigh.toNat then enterReading s else s

/-- The result of `Classify` (R89). -/
inductive PulseClass where
  /-- A symbol, 0 or 1. -/
  | sym (b : Symbol)
  /-- A pilot seen while `Reading`. -/
  | resync
  /-- Invalid timing. -/
  | invalid
  deriving DecidableEq, Repr

/-- `Classify(pl, ph)`, the cases in the listed order (R89, D9). -/
def classify (c : Cfg) (pl ph : Nat) : PulseClass :=
  if inShort c pl && inLong c ph then .sym false
  else if inLong c pl && inShort c ph then .sym true
  else if isPilot c pl && inShort c ph then .resync
  else .invalid

/-! ## Pairing -/

/-- `SyncBit(a, b)` (R94): only the pair (0, 1) is accepted, and it stores nothing. -/
def syncBit (a b : Symbol) (s : State) : State :=
  match a, b with
  | false, true => advance s
  | _, _ => abort s

/-- The logical bit of a payload pair `(a, b)`; (0, 1) is invalid (R95). -/
def payloadTri (a b : Symbol) : Option Tri :=
  match a, b with
  | false, false => some .zero
  | true, true => some .one
  | true, false => some .floating
  | false, true => none

/-- `PayloadBit(a, b)` (R95, R96, R97). -/
def payloadBit (a b : Symbol) (s : State) : State :=
  match payloadTri a b with
  | some t => complete (advance (store t s))
  | none => abort s

/-- The second half of a pair: the pending flag is cleared, then the pair is dispatched on `bit_index` (R93). -/
def decodePair (a b : Symbol) (s : State) : State :=
  if s.bitIndex.toNat < syncBits then syncBit a b (clearHalf s) else payloadBit a b (clearHalf s)

/-- `Pair(b)` (R92, R93). -/
def pair (b : Symbol) (s : State) : State :=
  if s.halfSymbolPending then decodePair s.pendingSymbol b s else capture b s

/-- The dispatch of a classified half-period pair (R86). -/
def applyClass (c : PulseClass) (s : State) : State :=
  match c with
  | .sym b => pair b s
  | .resync => resync s
  | .invalid => abort s

/-- Classification after a falling edge, by the state (R86): a pilot test in `Idle`, symbol classification in `Reading`. `Done`
does not come here: the gate of R81 has ended the command. -/
def classifyFalling (s : State) : State :=
  match s.state with
  | .idle => pilotCheck s
  | .reading => applyClass (classify s.cfg s.periodLow.toNat s.periodHigh.toNat) s
  | .done => s

/-! ## The steps common to both edges -/

/-- The wraparound delta of an edge at `ts` (R82). -/
def edgeDelta (ts : Nat) (s : State) : Nat := delta s.cfg.wTs ts s.lastEventTime

/-- The edge passes the `Done` gate (R81) and the noise test on the full-width delta (R82), in that order (R136). -/
def accepts (ts : Nat) (s : State) : Bool :=
  decide (s.state ≠ .done) && decide (s.cfg.noiseFloor ≤ edgeDelta ts s)

/-- The steps common to both edges (R80). The response of every EDGE is 0 (R55). An edge that is gated or rejected writes no
field (R81, R82); an accepted one stamps its time (R83) and hands its saturated half-period (R84) to `next`. -/
def intake (ts : Nat) (next : Period → State → State) (s : State) : State :=
  if accepts ts s then next (saturate (edgeDelta ts s)) (stamp ts (respond 0 s)) else respond 0 s

/-! ## Reading a frame out -/

/-- The 16-bit response whose bit `i` is `f i`, for `i` in 0 to 15 (R43, R111, R112). -/
def collect (f : Nat → Bool) : Rsp :=
  (BitVec.ofBoolListLE ((List.range exposedBits).map f)).setWidth 16

/-- The buffer position of exposed payload bit `i` (R43). -/
def exposedPos (i : Nat) : Nat := i + 2

/-- Every dynamic field at its construction value (R120): the configuration, the response and the port are not touched. -/
def clearAll (s : State) : State :=
  { s with
    state := .idle
    bitIndex := 0
    halfSymbolPending := false
    periodLow := 0
    periodHigh := 0
    lastEventTime := 0
    pendingSymbol := false
    valueBuf := 0
    zBuf := 0 }

end Sys2Proof.Machine
end

