-- ==== Sys2Proof/Machine/Legal.lean ====
section
/-! DEFINITION. Which states a command has a meaning on (10_state.md R20, R32; 40_construction.md R74), and the two refusals for
the others (60_exceptions.md R133). Every command goes through `perform`. -/

namespace Sys2Proof.Machine

/-- The control part of R32: `state`, `bit_index` and `half_symbol_pending` agree. -/
def controlLegal (s : State) : Bool :=
  decide ((s.state = .idle → s.bitIndex = 0 ∧ s.halfSymbolPending = false) ∧
    (s.state = .reading → s.bitIndex.toNat ≤ 19) ∧
    (s.state = .done → s.bitIndex = 20 ∧ s.halfSymbolPending = false) ∧
    (s.halfSymbolPending = true → s.state = .reading))

/-- The buffer part of R32: positions that decoding never reaches hold 0, and a Z position holds the value 0. -/
def buffersLegal (s : State) : Bool :=
  [0, 1, 20, 21, 22, 23].all (fun k => !bufRead s.valueBuf k && !bufRead s.zBuf k) &&
    (List.range 24).all (fun k => !(bufRead s.zBuf k && bufRead s.valueBuf k))

/-- The ranges of R20 that the field types do not carry, and the invariants of R32 (log 7). -/
def legal (s : State) : Bool :=
  tsFits s.cfg.wTs s.lastEventTime && controlLegal s && buffersLegal s

/-- An instance that exists, in a state the spec speaks of: a valid configuration (R74) and a legal state (R20, R32). -/
def good (s : State) : Bool := cfgValid s.cfg && legal s

/-- One command's effect, with the refusals of R133: no behaviour under an invalid configuration (R74), none on an ill-formed
state (R32, U9). -/
def perform (f : State → State) (s : State) : Host.Outcome State Fault Refusal :=
  if cfgValid s.cfg then
    if legal s then .next (f s) else .refused .illFormedState
  else .refused .configInvalid

end Sys2Proof.Machine
end

