-- ==== Sys2Proof/Machine/Access.lean ====
section
/-! DEFINITION. The commands that read results, and the idle command (42_result_access.md R110 to R114). None writes any field
but the response. -/

namespace Sys2Proof.Machine

/-- NOP (R113). -/
def execNop (s : State) : Host.Outcome State Fault Refusal := perform (respond 0) s

/-- IS_READY (R110). -/
def execIsReady (s : State) : Host.Outcome State Fault Refusal := perform (fun s => respond (readyRsp s) s) s

/-- Bit `i` of the response of VALUE_BITS (R111). -/
def valueBit (zFill : Bool) (s : State) (i : Nat) : Bool :=
  if bufRead s.zBuf (exposedPos i) then zFill else bufRead s.valueBuf (exposedPos i)

/-- VALUE_BITS (R111). -/
def execValueBits (zFill : Bool) (s : State) : Host.Outcome State Fault Refusal :=
  perform (fun s => respond (collect (valueBit zFill s)) s) s

/-- Bit `i` of the response of Z_MASK (R112). -/
def maskBit (zIsOne : Bool) (s : State) (i : Nat) : Bool :=
  if bufRead s.zBuf (exposedPos i) then zIsOne else !zIsOne

/-- Z_MASK (R112). -/
def execZMask (zIsOne : Bool) (s : State) : Host.Outcome State Fault Refusal :=
  perform (fun s => respond (collect (maskBit zIsOne s)) s) s

end Sys2Proof.Machine
end

