-- ==== Sys2Proof/Machine/Edge.lean ====
section
/-! DEFINITION. The edge intake commands EDGE.R and EDGE.F (41_edge_intake.md R80 to R97). -/

namespace Sys2Proof.Machine

/-- EDGE.R (R85): an accepted rising edge records the low half-period, and nothing else. -/
def execEdgeR (ts : Nat) (s : State) : Host.Outcome State Fault Refusal :=
  perform (intake ts setLow) s

/-- EDGE.F (R86): an accepted falling edge records the high half-period, then classifies. -/
def execEdgeF (ts : Nat) (s : State) : Host.Outcome State Fault Refusal :=
  perform (intake ts fun p s => classifyFalling (setHigh p s)) s

end Sys2Proof.Machine
end

