-- ==== Sys2Proof/Machine/Reset.lean ====
section
/-! DEFINITION. The RESET command (43_reset.md R120 to R122). -/

namespace Sys2Proof.Machine

/-- RESET (R120): every dynamic field to its construction value, in every state; the response is 0. -/
def execReset (s : State) : Host.Outcome State Fault Refusal :=
  perform (fun s => respond 0 (clearAll s)) s

end Sys2Proof.Machine
end

