-- ==== Sys2Proof/Machine/Dispatch.lean ====
section
/-! DEFINITION. One arm per command (20_memory.md R47). -/

namespace Sys2Proof.Machine

def exec (i : Instr) (s : State) : Host.Outcome State Fault Refusal :=
  match i with
  | .nop => Sys2Proof.Machine.execNop s
  | .edgeR ts => Sys2Proof.Machine.execEdgeR ts s
  | .edgeF ts => Sys2Proof.Machine.execEdgeF ts s
  | .reset => Sys2Proof.Machine.execReset s
  | .isReady => Sys2Proof.Machine.execIsReady s
  | .valueBits zFill => Sys2Proof.Machine.execValueBits zFill s
  | .zMask zIsOne => Sys2Proof.Machine.execZMask zIsOne s

end Sys2Proof.Machine
end

