-- ==== Sys2Proof/Machine/Port.lean ====
section
/-! DEFINITION. The command port (30_encoding.md R51): command words are presented by the platform and taken one at a time, in
presentation order (20_memory.md R46). -/

namespace Sys2Proof.Machine

/-- `cmd_valid`: a command is presented (R51). -/
def cmdValid (s : State) : Bool := !s.cmds.isEmpty

/-- The platform presents one more command word, after those already presented (R46, R51). -/
def present (w : Nat) (s : State) : State := { s with cmds := s.cmds ++ [w] }

/-- A command word presented before all those already there. -/
def presentNext (w : Nat) (s : State) : State := { s with cmds := w :: s.cmds }

/-- The command word on the port, if one is presented, and the state once it is taken: each is consumed once (R39). -/
def takeCmd (s : State) : Option (Nat × State) :=
  match s.cmds with
  | [] => none
  | w :: rest => some (w, { s with cmds := rest })

end Sys2Proof.Machine
end

