-- ==== Sys2Proof/Machine/Step.lean ====
section
/-! DEFINITION. One step: the block executes exactly one command for each presentation (30_encoding.md R51). -/

namespace Sys2Proof.Machine

/-- One step. With no command presented the block does nothing (log 5); a reserved opcode is refused (R54). -/
def step (s : State) : Host.Outcome State Fault Refusal :=
  match takeCmd s with
  | none => .next s
  | some (w, s') =>
    match decode s'.cfg.wTs w with
    | .ok i => exec i s'
    | .error .reservedOpcode => .refused .reservedOpcode

/-- `s` with the word `w` of `nbits` bits presented on the port as the next command. The block has no program of its own: a
command stream comes from the platform, and this stands for its presentation (log 4). -/
def State.withFetchWord (s : State) (nbits w : Nat) : State := presentNext (w % 2 ^ nbits) s

end Sys2Proof.Machine
end

