-- ==== Sys2Proof/Machine/Pseudo.lean ====
section
/-! DEFINITION. The assembler forms and pseudo-instructions (30_encoding.md R56, R57), as abstract syntax with its expansion into
commands and its text, and the transmitted frame of 42_result_access.md R115 built from them. -/

namespace Sys2Proof.Machine

/-- The argument `b` of the pseudo-instruction BIT (R57). -/
inductive BitSpec where
  /-- The sync pattern. -/
  | sync
  /-- A payload bit. -/
  | payload (t : Tri)
  deriving DecidableEq, Repr

/-- The two symbols of a bit, first and second (R57; R94, R95). -/
def BitSpec.symbols : BitSpec → List Symbol
  | .sync => [false, true]
  | .payload .zero => [false, false]
  | .payload .one => [true, true]
  | .payload .floating => [true, false]

/-- One line of assembler text: a command, the generic EDGE (R56), or a pseudo-instruction (R57). -/
inductive Asm where
  /-- A command in its own form. -/
  | cmd (i : Instr)
  /-- `EDGE <level>, <ts>`. -/
  | edge (level : Bool) (ts : Nat)
  /-- `SYM t, lo, hi`. -/
  | sym (t lo hi : Nat)
  /-- `SYM0 t, S, L`. -/
  | sym0 (t S L : Nat)
  /-- `SYM1 t, S, L`. -/
  | sym1 (t S L : Nat)
  /-- `BIT b, t, S, L`. -/
  | bit (b : BitSpec) (t S L : Nat)
  /-- `PILOT t, P, S`. -/
  | pilot (t P S : Nat)
  /-- `READ_FRAME zf, zo`. -/
  | readFrame (zf zo : Bool)
  deriving DecidableEq, Repr

/-- `SYM t, lo, hi`: a low half-period then a high one, time taken modulo `2^W_TS` (R57). -/
def expandSym (wTs t lo hi : Nat) : List Instr :=
  [.edgeR ((t + lo) % 2 ^ wTs), .edgeF ((t + lo + hi) % 2 ^ wTs)]

/-- Symbol 0 is short low, long high; symbol 1 is long low, short high (R57): the low and the high half-period. -/
def symbolPulse (S L : Nat) (b : Symbol) : Nat × Nat := if b then (L, S) else (S, L)

/-- Consecutive symbols, each starting where the one before it ended: for a list of low and high half-periods, the edges from
time `t` on. -/
def train (wTs : Nat) : Nat → List (Nat × Nat) → List Instr
  | _, [] => []
  | t, (lo, hi) :: rest => expandSym wTs t lo hi ++ train wTs (t + lo + hi) rest

/-- The commands a line stands for (R56, R57). -/
def Asm.expand (wTs : Nat) : Asm → List Instr
  | .cmd i => [i]
  | .edge level ts => [if level then .edgeR ts else .edgeF ts]
  | .sym t lo hi => expandSym wTs t lo hi
  | .sym0 t S L => expandSym wTs t S L
  | .sym1 t S L => expandSym wTs t L S
  | .bit b t S L => train wTs t (b.symbols.map (symbolPulse S L))
  | .pilot t P S => expandSym wTs t P S
  | .readFrame zf zo => [.isReady, .valueBits zf, .zMask zo]

/-- A Boolean operand as text (R56). -/
def boolText (b : Bool) : String := if b then "1" else "0"

/-- A command as text (R56). -/
def instrText (i : Instr) : String :=
  match i with
  | .nop => "NOP"
  | .edgeR ts => "EDGE.R " ++ toString ts
  | .edgeF ts => "EDGE.F " ++ toString ts
  | .reset => "RESET"
  | .isReady => "IS_READY"
  | .valueBits zFill => "VALUE_BITS " ++ boolText zFill
  | .zMask zIsOne => "Z_MASK " ++ boolText zIsOne

/-- The argument of BIT as text (R57). -/
def BitSpec.text : BitSpec → String
  | .sync => "SYNC"
  | .payload .zero => "0"
  | .payload .one => "1"
  | .payload .floating => "Z"

/-- Three numeric operands as text. -/
def threeText (a b c : Nat) : String := toString a ++ ", " ++ toString b ++ ", " ++ toString c

/-- A line as text (R56, R57). -/
def Asm.text : Asm → String
  | .cmd i => instrText i
  | .edge level ts => "EDGE " ++ boolText level ++ ", " ++ toString ts
  | .sym t lo hi => "SYM " ++ threeText t lo hi
  | .sym0 t S L => "SYM0 " ++ threeText t S L
  | .sym1 t S L => "SYM1 " ++ threeText t S L
  | .bit b t S L => "BIT " ++ b.text ++ ", " ++ threeText t S L
  | .pilot t P S => "PILOT " ++ threeText t P S
  | .readFrame zf zo => "READ_FRAME " ++ boolText zf ++ ", " ++ boolText zo

/-- Payload bit `i` of a word with a floating mask (R115). -/
def payloadOf (word zm : BitVec 16) (i : Nat) : Tri :=
  if zm.getLsbD i then .floating else if word.getLsbD i then .one else .zero

/-- The 20 bits of the frame of R115: two SYNC bits, sixteen payload bits, two trailer bits. -/
def frameSpec (word zm : BitVec 16) (t0 t1 : Tri) : List BitSpec :=
  [.sync, .sync] ++ (List.range exposedBits).map (fun i => .payload (payloadOf word zm i)) ++ [.payload t0, .payload t1]

/-- The 40 symbols of that frame. -/
def frameSymbols (word zm : BitVec 16) (t0 t1 : Tri) : List Symbol :=
  (frameSpec word zm t0 t1).flatMap BitSpec.symbols

end Sys2Proof.Machine
end

