-- ==== Sys2Proof/Safety.lean ====
section
/-! DEFINITION. The terms the statements use: runs of a command stream, what a read answers, the premises on edges and pulses,
and the shift of time (20_memory.md R46, R49; 41_edge_intake.md R99, R100; 42_result_access.md R115). -/

namespace Sys2Proof.Machine

/-- `n` steps, stopping at the first refusal. -/
def run : Nat → State → Host.Outcome State Fault Refusal
  | 0, s => .next s
  | n + 1, s =>
    match step s with
    | .next t => run n t
    | .fault f => .fault f
    | .refused r => .refused r

/-- The state after the commands `cs` are presented and executed in order, before anything presented already (R46). -/
def deliver (cs : List Instr) (s : State) : Host.Outcome State Fault Refusal :=
  run cs.length { s with cmds := cs.map encode ++ s.cmds }

/-- The left fold of `exec` over a command sequence (R46), stopping at a refusal. -/
def execAll : List Instr → State → Host.Outcome State Fault Refusal
  | [], s => .next s
  | i :: cs, s =>
    match exec i s with
    | .next t => execAll cs t
    | .fault f => .fault f
    | .refused r => .refused r

/-- What command `i` answers on `rsp` in state `s`, if it runs. -/
def response (i : Instr) (s : State) : Option Rsp :=
  match exec i s with
  | .next t => some t.rsp
  | .fault _ => none
  | .refused _ => none

/-- The command is an EDGE: the producer's (R44). -/
def isEdge (i : Instr) : Bool :=
  match i with
  | .edgeR _ => true
  | .edgeF _ => true
  | .nop => false
  | .reset => false
  | .isReady => false
  | .valueBits _ => false
  | .zMask _ => false

/-- The command is a falling edge. -/
def isFalling (i : Instr) : Bool :=
  match i with
  | .edgeF _ => true
  | .edgeR _ => false
  | .nop => false
  | .reset => false
  | .isReady => false
  | .valueBits _ => false
  | .zMask _ => false

/-- The command is one of the result accessors (42_result_access.md). -/
def isRead (i : Instr) : Bool :=
  match i with
  | .isReady => true
  | .valueBits _ => true
  | .zMask _ => true
  | .nop => false
  | .edgeR _ => false
  | .edgeF _ => false
  | .reset => false

/-- An edge at `ts` that the block accepts: not in `Done` (R81) and not closer than the noise floor (R82). -/
abbrev Accepted (ts : Nat) (s : State) : Prop :=
  s.state ≠ .done ∧ s.cfg.noiseFloor ≤ delta s.cfg.wTs ts s.lastEventTime

/-- The high half-period that a falling edge at `ts` would measure (R82, R84). -/
def measured (ts : Nat) (s : State) : Nat := min (delta s.cfg.wTs ts s.lastEventTime) 65535

/-- The writes that every accepted falling edge makes, whatever it classifies: `last_event_time`, `period_high`, and the
response 0 (R83, R86, R55). -/
def fallen (ts : Nat) (s : State) : State :=
  { s with lastEventTime := ts, periodHigh := BitVec.ofNat 16 (measured ts s), rsp := 0 }

/-- A falling edge at `ts` completes a symbol of value `b` in `Reading` (R89). -/
abbrev CompletesSymbol (ts : Nat) (b : Symbol) (s : State) : Prop :=
  if b then inLong s.cfg s.periodLow.toNat = true ∧ inShort s.cfg (measured ts s) = true
  else inShort s.cfg s.periodLow.toNat = true ∧ inLong s.cfg (measured ts s) = true

/-- A half-period the block measures as it is: not rejected as noise (R82) and shorter than the timestamp's wrap (R157). -/
abbrev MeasuredAsIs (c : Cfg) (d : Nat) : Prop := c.noiseFloor ≤ d ∧ d < 2 ^ c.wTs

/-- The pulse (low, high) carries symbol `b`, with its half-periods inside the windows (R115). -/
abbrev PulseCarries (c : Cfg) (b : Symbol) (pulse : Nat × Nat) : Prop :=
  MeasuredAsIs c pulse.1 ∧ MeasuredAsIs c pulse.2 ∧
    if b then inLong c pulse.1 = true ∧ inShort c pulse.2 = true else inShort c pulse.1 = true ∧ inLong c pulse.2 = true

/-- The pulse (low, high) is a pilot: a low that is a pilot low once saturated (R84, R87), then a short high. -/
abbrev PulseIsPilot (c : Cfg) (pulse : Nat × Nat) : Prop :=
  MeasuredAsIs c pulse.1 ∧ MeasuredAsIs c pulse.2 ∧ isPilot c (min pulse.1 65535) = true ∧ inShort c pulse.2 = true

/-- A command with its timestamp moved by `d` modulo `2^W_TS` (R99). -/
def shiftInstr (wTs d : Nat) (i : Instr) : Instr :=
  match i with
  | .edgeR ts => .edgeR ((ts + d) % 2 ^ wTs)
  | .edgeF ts => .edgeF ((ts + d) % 2 ^ wTs)
  | .nop => .nop
  | .reset => .reset
  | .isReady => .isReady
  | .valueBits zFill => .valueBits zFill
  | .zMask zIsOne => .zMask zIsOne

/-- A state with `last_event_time` moved by `d` modulo `2^W_TS` (R99). -/
def shiftState (d : Nat) (s : State) : State :=
  { s with lastEventTime := (s.lastEventTime + d) % 2 ^ s.cfg.wTs }

end Sys2Proof.Machine
end

