-- ==== Sys2Proof/Certificates/Slice0/Obligations.lean ====
section
/-! DEFINITION. The statements for the provers. `cfg`, state and response clauses are written out as the rules give them; a
record update `{ s with … }` is at once the result and the frame: every field it does not name is unchanged. -/

open Sys2Proof Sys2Proof.Machine

/-! ## Encoding and the port -/

/-- R52: the opcode map, with `op` read first and, for `op = 001`, the level from bit 3; R53: the fields used as they are. -/
def Obligations.OpcodeSelectsCommand : Prop :=
  ∀ wTs w : Nat,
    (w % 8 = 0 → decode wTs w = .ok .nop) ∧
    (w % 8 = 1 → w / 8 % 2 = 1 → decode wTs w = .ok (.edgeR (w / 16 % 2 ^ wTs))) ∧
    (w % 8 = 1 → w / 8 % 2 = 0 → decode wTs w = .ok (.edgeF (w / 16 % 2 ^ wTs))) ∧
    (w % 8 = 2 → decode wTs w = .ok .reset) ∧
    (w % 8 = 3 → decode wTs w = .ok .isReady) ∧
    (w % 8 = 4 → decode wTs w = .ok (.valueBits (decide (w / 8 % 2 = 1)))) ∧
    (w % 8 = 5 → decode wTs w = .ok (.zMask (decide (w / 8 % 2 = 1)))) ∧
    (w % 8 = 6 ∨ w % 8 = 7 → decode wTs w = .error .reservedOpcode)

/-- Decoding an encoded well-formed command gives it back, at every timestamp width (R50, R52, R56); and for a command without
a timestamp it does so whatever the ignored `ts` bits are (R53). -/
def Obligations.DecodeOfEncodeIsIdentity : Prop :=
  ∀ (wTs : Nat) (i : Instr), i.wellFormed wTs = true →
    decode wTs (encode i) = .ok i ∧
    (isEdge i = false → ∀ k : Nat, decode wTs (encode i + 16 * k) = .ok i)

/-- Words of 95_test_vectors.md V-E1, V-E2 and V-E4, written out from the encoding of R50. -/
def Obligations.DecodedWordsOfTheVectors : Prop :=
  decode 32 0x00000FA09 = .ok (.edgeR 4000) ∧ decode 32 0x000010221 = .ok (.edgeF 4130) ∧
  decode 32 0xFFFFFFFF1 = .ok (.edgeF 4294967295) ∧ decode 32 0xABCDEF01C = .ok (.valueBits true) ∧
  decode 32 0x12345678A = .ok .reset ∧ decode 32 0x00000100D = .ok (.zMask true) ∧
  decode 16 0x0FA09 = .ok (.edgeR 4000) ∧ decode 64 0x0000000000000FA09 = .ok (.edgeR 4000)

/-- R53: two words that differ only in ignored bits have identical effects and responses. -/
def Obligations.IgnoredBitsHaveNoEffect : Prop :=
  ∀ (s : State) (v w : Nat) (rest : List Nat),
    v % 8 = w % 8 →
    (v % 8 = 1 ∨ v % 8 = 4 ∨ v % 8 = 5 → v / 8 % 2 = w / 8 % 2) →
    (v % 8 = 1 → v / 16 % 2 ^ s.cfg.wTs = w / 16 % 2 ^ s.cfg.wTs) →
    step { s with cmds := v :: rest } = step { s with cmds := w :: rest }

/-- R54, R133: a word with a reserved opcode is refused by name. -/
def Obligations.ReservedOpcodeRefused : Prop :=
  ∀ (s : State) (w : Nat) (rest : List Nat), s.cmds = w :: rest → w % 8 = 6 ∨ w % 8 = 7 →
    step s = .refused .reservedOpcode

/-- R47, R51: a step takes the word on the port and runs the command it decodes to, on the state with the word taken. -/
def Obligations.StepRunsDecodedCommand : Prop :=
  ∀ (s : State) (w : Nat) (rest : List Nat) (i : Instr), s.cmds = w :: rest → decode s.cfg.wTs w = .ok i →
    step s = exec i { s with cmds := rest }

/-- The model's choice (log 5): with no command presented a step changes nothing. R51 speaks of presentations only. -/
def Obligations.StepWithNothingPresented : Prop :=
  ∀ s : State, s.cmds = [] → step s = .next s

/-- R46: the state after a sequence of commands is the left fold of the commands' effects over it. -/
def Obligations.PresentedStreamIsLeftFold : Prop :=
  ∀ (cs : List Instr) (s : State), (∀ i ∈ cs, i.wellFormed s.cfg.wTs = true) → deliver cs s = execAll cs s

/-- The model's choices (log 7, log 8), under two names of R133: every command to an instance whose configuration fails
`cfgValid` is refused as `configInvalid`, though R133 names only the construction, and `cfgValid` asks for a `W_TS` of at least 1
besides R74 (log 8); on a valid configuration every command applied to a state outside `legal` is refused as `illFormedState`,
and `legal` looks at the range of `last_event_time` (R20) besides the invariants of R32 (log 7). -/
def Obligations.RefusalsOfAllCommands : Prop :=
  ∀ (i : Instr) (s : State),
    (cfgValid s.cfg = false → exec i s = .refused .configInvalid) ∧
    (cfgValid s.cfg = true → legal s = false → exec i s = .refused .illFormedState)

/-- R47, R134: on a valid configuration and a legal state, every word with a command's opcode is executed in one step, and the
step takes that word only. -/
def Obligations.EveryPresentedCommandCompletes : Prop :=
  ∀ (s : State) (w : Nat) (rest : List Nat), good s = true → s.cmds = w :: rest → w % 8 < 6 →
    ∃ t, step s = .next t ∧ t.cmds = rest ∧ good t = true

/-! ## The accessors, NOP and RESET -/

/-- R113: NOP changes nothing and answers 0; the all-zero word is a NOP. -/
def Obligations.NopResult : Prop :=
  (∀ s : State, good s = true → exec .nop s = .next { s with rsp := 0 }) ∧
  (∀ wTs w : Nat, w % 8 = 0 → decode wTs w = .ok .nop)

/-- R110: IS_READY answers 1 in `Done` and 0 in `Idle` and `Reading`, and writes no field. -/
def Obligations.IsReadyResult : Prop :=
  (∀ s : State, good s = true →
    exec .isReady s = .next { s with rsp := if s.state = .done then 1 else 0 }) ∧
  (∀ wTs w : Nat, w % 8 = 3 → decode wTs w = .ok .isReady)

/-- R111: bit `i` of the response of VALUE_BITS is payload bit `i`, read at position `i + 2`, or `z_fill` where it floats. -/
def Obligations.ValueBitsResult : Prop :=
  ∀ (s : State) (zFill : Bool), good s = true →
    ∃ t, exec (.valueBits zFill) s = .next t ∧ t = { s with rsp := t.rsp } ∧
      ∀ i < 16, t.rsp.getLsbD i = if s.zBuf.getLsbD (i + 2) then zFill else s.valueBuf.getLsbD (i + 2)

/-- R112: bit `i` of the response of Z_MASK is `z_is_one` at a Z position and its negation elsewhere. -/
def Obligations.ZMaskResult : Prop :=
  ∀ (s : State) (zIsOne : Bool), good s = true →
    ∃ t, exec (.zMask zIsOne) s = .next t ∧ t = { s with rsp := t.rsp } ∧
      ∀ i < 16, t.rsp.getLsbD i = if s.zBuf.getLsbD (i + 2) then zIsOne else !zIsOne

/-- R111, R112 (the parts they mark as derived): the two fills differ exactly at the Z positions, and the two polarities of the
mask are complements. -/
def Obligations.ReadsAgreeOnFloatingBits : Prop :=
  ∀ s : State, good s = true →
    ∃ v0 v1 m0 m1 : Rsp,
      response (.valueBits false) s = some v0 ∧ response (.valueBits true) s = some v1 ∧
      response (.zMask false) s = some m0 ∧ response (.zMask true) s = some m1 ∧
      v0 ^^^ v1 = m1 ∧ m0 = ~~~ m1 ∧ v0 &&& m1 = 0

/-- R120: RESET, unconditional over the states of R20, gives the construction values and leaves the configuration. -/
def Obligations.ResetResult : Prop :=
  (∀ s : State, good s = true →
    exec .reset s = .next
      { cfg := s.cfg, state := .idle, lastEventTime := 0, periodLow := 0, periodHigh := 0, bitIndex := 0,
        halfSymbolPending := false, pendingSymbol := false, valueBuf := 0, zBuf := 0, rsp := 0, cmds := s.cmds }) ∧
  (∀ wTs w : Nat, w % 8 = 2 → decode wTs w = .ok .reset)

/-- R121: RESET is idempotent, and every field of its result has the value of the construction state of R150. That the response
0 of RESET (R55) is also the response in the construction state is the model's choice (log 3, DESIGN CHOICE): R150 says nothing
of `rsp`. The presented words stay (log 4). -/
def Obligations.ResetIsIdempotent : Prop :=
  ∀ s : State, good s = true →
    ∃ t, exec .reset s = .next t ∧ exec .reset t = .next t ∧ t = { State.initial s.cfg with cmds := s.cmds } ∧
      ready t = false

/-! ## Steps common to both edges -/

/-- R81: in `Done` an EDGE writes no field, `last_event_time` included. Its response is 0 (R55). -/
def Obligations.EdgeInDoneWritesNothing : Prop :=
  ∀ (s : State) (ts : Nat), good s = true → s.state = .done →
    exec (.edgeR ts) s = .next { s with rsp := 0 } ∧ exec (.edgeF ts) s = .next { s with rsp := 0 }

/-- R82: an edge whose delta, the `W_TS`-bit difference `d`, is below the noise floor is discarded, whatever its level. -/
def Obligations.NoiseEdgeIsDiscarded : Prop :=
  ∀ (s : State) (ts d : Nat), good s = true → d < 2 ^ s.cfg.wTs → (s.lastEventTime + d) % 2 ^ s.cfg.wTs = ts →
    d < s.cfg.noiseFloor →
    exec (.edgeR ts) s = .next { s with rsp := 0 } ∧ exec (.edgeF ts) s = .next { s with rsp := 0 }

/-- R83 and R84: an accepted edge writes `last_event_time`, and its half-period is the delta saturated at 65535. -/
def Obligations.AcceptedEdgeStampsAndSaturates : Prop :=
  ∀ (s : State) (ts d : Nat), good s = true → s.state ≠ .done →
    d < 2 ^ s.cfg.wTs → (s.lastEventTime + d) % 2 ^ s.cfg.wTs = ts → s.cfg.noiseFloor ≤ d →
    (∃ t, exec (.edgeR ts) s = .next t ∧ t.lastEventTime = ts ∧ t.periodLow.toNat = min d 65535) ∧
    (∃ t, exec (.edgeF ts) s = .next t ∧ t.lastEventTime = ts ∧ t.periodHigh.toNat = min d 65535)

/-- R85: EDGE.R, with its encoding. An accepted one writes `last_event_time` and `period_low` only; otherwise nothing happens.
The response 0 is R55. -/
def Obligations.RisingEdgeResult : Prop :=
  (∀ (s : State) (ts d : Nat), good s = true → d < 2 ^ s.cfg.wTs → (s.lastEventTime + d) % 2 ^ s.cfg.wTs = ts →
    (s.state ≠ .done → s.cfg.noiseFloor ≤ d →
      exec (.edgeR ts) s =
        .next { s with lastEventTime := ts, periodLow := BitVec.ofNat 16 (min d 65535), rsp := 0 }) ∧
    (s.state = .done ∨ d < s.cfg.noiseFloor → exec (.edgeR ts) s = .next { s with rsp := 0 })) ∧
  (∀ wTs w : Nat, w % 16 = 9 → decode wTs w = .ok (.edgeR (w / 16 % 2 ^ wTs)))

/-! ## EDGE.F -/

/-- R87: in `Idle`, an accepted falling edge after a pilot low and a short high starts a frame. -/
def Obligations.PilotInIdleStartsFrame : Prop :=
  ∀ (s : State) (ts : Nat), good s = true → s.state = .idle → Accepted ts s →
    s.cfg.pilotMin < s.periodLow.toNat → inShort s.cfg (measured ts s) = true →
    exec (.edgeF ts) s =
      .next { fallen ts s with state := .reading, bitIndex := 0, halfSymbolPending := false }

/-- R88: any other accepted falling edge in `Idle` only records its time and its half-period. -/
def Obligations.OtherFallingEdgeStaysIdle : Prop :=
  ∀ (s : State) (ts : Nat), good s = true → s.state = .idle → Accepted ts s →
    ¬ (s.cfg.pilotMin < s.periodLow.toNat ∧ inShort s.cfg (measured ts s) = true) →
    exec (.edgeF ts) s = .next (fallen ts s)

/-- R92: the first symbol of a pair is captured and no bit is decoded. -/
def Obligations.FirstSymbolIsCaptured : Prop :=
  ∀ (s : State) (ts : Nat) (b : Symbol), good s = true → s.state = .reading → Accepted ts s →
    CompletesSymbol ts b s → s.halfSymbolPending = false →
    exec (.edgeF ts) s = .next { fallen ts s with pendingSymbol := b, halfSymbolPending := true }

/-- R94 with R93: the second symbol of a sync bit. The pair (0, 1) advances `bit_index` and stores nothing; any other aborts. -/
def Obligations.SyncPairAdvancesOrAborts : Prop :=
  ∀ (s : State) (ts : Nat) (b : Symbol), good s = true → s.state = .reading → Accepted ts s →
    CompletesSymbol ts b s → s.halfSymbolPending = true → s.bitIndex.toNat < 2 →
    (s.pendingSymbol = false ∧ b = true →
      exec (.edgeF ts) s = .next { fallen ts s with halfSymbolPending := false, bitIndex := s.bitIndex + 1 }) ∧
    (¬ (s.pendingSymbol = false ∧ b = true) →
      exec (.edgeF ts) s = .next { fallen ts s with state := .idle, bitIndex := 0, halfSymbolPending := false })

/-- R93, R95, R96, R97: the second symbol of a payload bit other than (0, 1). Position `bit_index` of the buffers gets the value
(1 only for the pair (1, 1)) and the Z flag (1 only for (1, 0)), every other position is unchanged, `bit_index` advances, and the
state is `Done` after the twentieth bit. That a Z position stores the value 0 is the spec's own decision D12 (log 10). -/
def Obligations.PayloadBitIsStored : Prop :=
  ∀ (s : State) (ts : Nat) (b : Symbol), good s = true → s.state = .reading → Accepted ts s →
    CompletesSymbol ts b s → s.halfSymbolPending = true → 2 ≤ s.bitIndex.toNat →
    ¬ (s.pendingSymbol = false ∧ b = true) →
    ∃ t, exec (.edgeF ts) s = .next t ∧
      t = { fallen ts s with
            halfSymbolPending := false, bitIndex := s.bitIndex + 1, valueBuf := t.valueBuf, zBuf := t.zBuf,
            state := if s.bitIndex.toNat = 19 then .done else .reading } ∧
      ∀ k < 24,
        bufRead t.valueBuf k = (if k = s.bitIndex.toNat then s.pendingSymbol && b else bufRead s.valueBuf k) ∧
        bufRead t.zBuf k = (if k = s.bitIndex.toNat then s.pendingSymbol && !b else bufRead s.zBuf k)

/-- R95 with R91: the payload pair (0, 1) aborts, and the buffers keep what they hold (D11). -/
def Obligations.PayloadZeroOneAborts : Prop :=
  ∀ (s : State) (ts : Nat), good s = true → s.state = .reading → Accepted ts s →
    CompletesSymbol ts true s → s.halfSymbolPending = true → 2 ≤ s.bitIndex.toNat → s.pendingSymbol = false →
    exec (.edgeF ts) s = .next { fallen ts s with state := .idle, bitIndex := 0, halfSymbolPending := false }

/-- R89, R91: in `Reading`, timing that is no symbol and no pilot aborts the frame, and the buffers keep what they hold (D11). -/
def Obligations.InvalidTimingAborts : Prop :=
  ∀ (s : State) (ts : Nat), good s = true → s.state = .reading → Accepted ts s →
    ¬ CompletesSymbol ts false s → ¬ CompletesSymbol ts true s →
    ¬ (s.cfg.pilotMin < s.periodLow.toNat ∧ inShort s.cfg (measured ts s) = true) →
    exec (.edgeF ts) s = .next { fallen ts s with state := .idle, bitIndex := 0, halfSymbolPending := false }

/-- R89, R90: a pilot while `Reading` restarts the frame without leaving `Reading`; that the pending half is dropped is the
spec's own decision D10 (log 10). -/
def Obligations.PilotWhileReadingResyncs : Prop :=
  ∀ (s : State) (ts : Nat), good s = true → s.state = .reading → Accepted ts s →
    s.cfg.pilotMin < s.periodLow.toNat → inShort s.cfg (measured ts s) = true →
    exec (.edgeF ts) s = .next { fallen ts s with bitIndex := 0, halfSymbolPending := false }

/-- R77 under R74: the three windows are disjoint and ordered, so no two cases of the classification meet (D9). -/
def Obligations.WindowsAreDisjoint : Prop :=
  ∀ (c : Cfg) (p q r : Nat), cfgValid c = true → inShort c p = true → inLong c q = true → isPilot c r = true →
    p < q ∧ q < r

/-! ## Construction -/

/-- R70, R74, R75, R133, R150: a construction answers the construction state of its configuration, or is refused. The model's
choices in it: `rsp` is 0 in the construction state (log 3), `cfgValid` asks for a `W_TS` of at least 1 (log 8), and it accepts a
clamped `pilot_min` that R74's last sentence calls refused (log 13). -/
def Obligations.ConstructionAnswersInitialOrRefuses : Prop :=
  ∀ (wTs : Nat) (x : ConstructInputs) (c : Cfg),
    (cfgValid c = true → constructDirect c = .next (State.initial c) ∧ good (State.initial c) = true) ∧
    (cfgValid c = false → constructDirect c = .refused .configInvalid) ∧
    (inputsInDomain x = true → construct wTs x = constructDirect (deriveCfg wTs x)) ∧
    (inputsInDomain x = false → construct wTs x = .refused .configInvalid)

/-- R73: on the 16-bit half-periods the integer thresholds decide exactly the comparisons with the real thresholds of R72. The
premise `p ≤ 65535` stands over every clause on half-periods: beyond it the clamped `pilot_min` would not agree (NOTES.md). -/
def Obligations.IntegerThresholdsAreExact : Prop :=
  ∀ (wTs : Nat) (x : ConstructInputs) (p : Nat), inputsInDomain x = true → p ≤ 65535 →
    (inShort (deriveCfg wTs x) p = true ↔ shortLoQ x ≤ (p : ℚ) ∧ (p : ℚ) ≤ shortHiQ x) ∧
    (inLong (deriveCfg wTs x) p = true ↔ longLoQ x ≤ (p : ℚ) ∧ (p : ℚ) ≤ longHiQ x) ∧
    (isPilot (deriveCfg wTs x) p = true ↔ pilotQ x < (p : ℚ)) ∧
    (∀ d : Nat, d < (deriveCfg wTs x).noiseFloor ↔ (d : ℚ) < noiseQ x)

/-- R74: a zero tolerance is refused, and in real arithmetic the short and long windows are apart exactly below one third. -/
def Obligations.DegenerateTolerances : Prop :=
  ∀ (wTs : Nat) (x : ConstructInputs),
    (x.tolerance = 0 → construct wTs x = .refused .configInvalid) ∧
    (inputsInDomain x = true → (shortHiQ x < longLoQ x ↔ x.tolerance < 1 / 3))

/-! ## Invariants and whole-machine rules -/

/-- R20, R150: what the machine holds after power-on, for the dynamic fields. The last clause, that `W_TS` is 32 there, is the
model's choice (log 1, DESIGN CHOICE): R6 and D2 leave `W_TS` open and name 32 only as the default. -/
def Obligations.ResetStateHoldsConstructionValues : Prop :=
  State.reset.state = .idle ∧ State.reset.lastEventTime = 0 ∧ State.reset.periodLow = 0 ∧ State.reset.periodHigh = 0 ∧
  State.reset.bitIndex = 0 ∧ State.reset.halfSymbolPending = false ∧ State.reset.pendingSymbol = false ∧
  State.reset.valueBuf = 0 ∧ State.reset.zBuf = 0 ∧ ready State.reset = false ∧ State.reset.cfg.wTs = 32

/-- The invariant of `EveryStepKeepsGood` holds of the power-on state (its configuration is the model's choice,
log 2, and so is its timestamp width, log 1). -/
def Obligations.ResetStateIsGood : Prop := good State.reset = true

/-- R32, R74, R20: the invariants of every reachable state are kept by every step, from every state that has them. -/
def Obligations.EveryStepKeepsGood : Prop :=
  ∀ s t : State, good s = true → step s = .next t → good t = true

/-- R76: no command changes `cfg`. -/
def Obligations.ConfigurationNeverChanges : Prop :=
  ∀ s t : State, step s = .next t → t.cfg = s.cfg

/-- R49: a completed frame stays as it is through every interleaving of commands without a RESET, and every read answers as it
would have at once. -/
def Obligations.FrameIsStableInDone : Prop :=
  ∀ (cs : List Instr) (s : State), good s = true → s.state = .done →
    (∀ i ∈ cs, i.wellFormed s.cfg.wTs = true ∧ i ≠ .reset) →
    ∃ t, deliver cs s = .next t ∧ t = { s with rsp := t.rsp } ∧
      ∀ i, isRead i = true → response i t = response i s

/-- R101: the only transitions of the control state, and what makes them. -/
def Obligations.OnlyTheseTransitions : Prop :=
  ∀ (i : Instr) (s t : State), exec i s = .next t → t.state ≠ s.state →
    (i = .reset ∧ t.state = .idle) ∨
    (∃ ts, i = .edgeF ts ∧ Accepted ts s ∧
      ((s.state = .idle ∧ t.state = .reading ∧ s.cfg.pilotMin < s.periodLow.toNat ∧
          inShort s.cfg (measured ts s) = true) ∨
       (s.state = .reading ∧ t.state = .done ∧ s.bitIndex.toNat = 19 ∧ s.halfSymbolPending = true ∧
          (CompletesSymbol ts false s ∨ CompletesSymbol ts true s)) ∨
       (s.state = .reading ∧ t.state = .idle ∧ t.valueBuf = s.valueBuf ∧ t.zBuf = s.zBuf ∧
          (s.halfSymbolPending = true ∨ (¬ CompletesSymbol ts false s ∧ ¬ CompletesSymbol ts true s)))))

/-- R22, R23, R24, R27, R40: which command writes `last_event_time`, each period, `pending_symbol` and a buffer position, and
that nothing else does. -/
def Obligations.OnlyTheseCommandsWriteAField : Prop :=
  ∀ (i : Instr) (s t : State), exec i s = .next t →
    (t.lastEventTime ≠ s.lastEventTime → (i = .reset ∧ t.lastEventTime = 0) ∨
      ∃ ts, (i = .edgeR ts ∨ i = .edgeF ts) ∧ Accepted ts s ∧ t.lastEventTime = ts) ∧
    (t.periodLow ≠ s.periodLow → (i = .reset ∧ t.periodLow = 0) ∨ ∃ ts, i = .edgeR ts ∧ Accepted ts s) ∧
    (t.periodHigh ≠ s.periodHigh → (i = .reset ∧ t.periodHigh = 0) ∨ ∃ ts, i = .edgeF ts ∧ Accepted ts s) ∧
    (t.pendingSymbol ≠ s.pendingSymbol → (i = .reset ∧ t.pendingSymbol = false) ∨
      ∃ ts, i = .edgeF ts ∧ Accepted ts s ∧ s.state = .reading ∧ s.halfSymbolPending = false ∧
        CompletesSymbol ts t.pendingSymbol s) ∧
    ∀ k, bufRead t.valueBuf k ≠ bufRead s.valueBuf k ∨ bufRead t.zBuf k ≠ bufRead s.zBuf k →
      (i = .reset ∧ bufRead t.valueBuf k = false ∧ bufRead t.zBuf k = false) ∨
      ∃ ts, i = .edgeF ts ∧ Accepted ts s ∧ s.state = .reading ∧ s.halfSymbolPending = true ∧
        k = s.bitIndex.toNat ∧ 2 ≤ k ∧ k ≤ 19

/-- R132, R141: a response depends on nothing but whether the frame is complete and what the buffers hold. -/
def Obligations.ResponsesSeeOnlyReadyAndBuffers : Prop :=
  ∀ (i : Instr) (s t : State), good s = true → good t = true →
    s.valueBuf = t.valueBuf → s.zBuf = t.zBuf → (s.state = .done ↔ t.state = .done) →
    response i s = response i t

/-- R41: in a good state every buffer position is a logical 0, 1 or Z; the combination (1, 1) does not occur. -/
def Obligations.EveryPositionIsTriState : Prop :=
  ∀ (s : State) (k : Nat), good s = true → (triOf (bufRead s.zBuf k) (bufRead s.valueBuf k)).isSome = true

/-- R43 (D23): the packed view puts position `k` in bit `k mod 8` of byte `k / 8`. -/
def Obligations.PackedViewBitOrder : Prop :=
  ∀ (buf : BitBuf) (k : Nat), k < 24 → (packedByte buf (k / 8)).getLsbD (k % 8) = bufRead buf k

/-- R57: a BIT is four edge commands, the last a falling edge `2(S+L)` ticks after its start. -/
def Obligations.BitExpansionSpans : Prop :=
  ∀ (wTs t S L : Nat) (b : BitSpec),
    ((Asm.bit b t S L).expand wTs).length = 4 ∧
    ((Asm.bit b t S L).expand wTs).getLast? = some (.edgeF ((t + 2 * (S + L)) % 2 ^ wTs))

/-! ## Runs -/

/-- R159 with R82: a burst of edges, each closer than the noise floor to the last accepted edge, has no effect at all. -/
def Obligations.GlitchBurstHasNoEffect : Prop :=
  ∀ (cs : List Instr) (s : State), good s = true →
    (∀ i ∈ cs, ∃ ts, (i = .edgeR ts ∨ i = .edgeF ts) ∧ ts < 2 ^ s.cfg.wTs ∧
      delta s.cfg.wTs ts s.lastEventTime < s.cfg.noiseFloor) →
    ∃ t, deliver cs s = .next t ∧ t = { s with rsp := t.rsp }

/-- R153: the first edge after RESET measures from 0. A falling one starts no frame; a rising one takes its raw timestamp for
the low half-period. -/
def Obligations.FirstEdgeAfterResetMeasuresFromZero : Prop :=
  ∀ (s : State) (ts : Nat), good s = true → ts < 2 ^ s.cfg.wTs →
    ∃ r, exec .reset s = .next r ∧
      (∃ t, exec (.edgeF ts) r = .next t ∧ t.state = .idle) ∧
      (s.cfg.noiseFloor ≤ ts → ∃ t, exec (.edgeR ts) r = .next t ∧ t.periodLow.toNat = min ts 65535)

/-- R154: a low half-period of 65535 ticks or more before a short high starts or restarts a frame. The premise
`pilot_min < 65535` is the rule's; R74 alone allows 65535 (NOTES.md). -/
def Obligations.SaturatedLowIsPilot : Prop :=
  ∀ (s : State) (lo hi : Nat), good s = true → s.state ≠ .done → s.cfg.pilotMin < 65535 → 65535 ≤ lo →
    MeasuredAsIs s.cfg lo → MeasuredAsIs s.cfg hi → inShort s.cfg hi = true →
    ∃ t, deliver (expandSym s.cfg.wTs s.lastEventTime lo hi) s = .next t ∧
      t.state = .reading ∧ t.bitIndex = 0 ∧ t.halfSymbolPending = false

/-- R115: a frame sent with half-periods inside the windows is received. From any state that is not `Done` (`Idle`, after a
RESET, or in the middle of another frame, R160), the 82 edges (R100) of a pilot and the 40 symbols of `word` with floating mask
`zm` and any trailer reach `Done`, and the reads answer the word and the mask. The timestamps may wrap (R99). -/
def Obligations.FrameRoundTrip : Prop :=
  ∀ (s : State) (word zm : BitVec 16) (t0 t1 : Tri) (pilot : Nat × Nat) (pulses : List (Nat × Nat)),
    good s = true → s.state ≠ .done → PulseIsPilot s.cfg pilot →
    List.Forall₂ (PulseCarries s.cfg) (frameSymbols word zm t0 t1) pulses →
    (train s.cfg.wTs s.lastEventTime (pilot :: pulses)).length = 82 ∧
    ∃ t, deliver (train s.cfg.wTs s.lastEventTime (pilot :: pulses)) s = .next t ∧
      t.state = .done ∧ response .isReady t = some 1 ∧
      response (.valueBits false) t = some (word &&& ~~~ zm) ∧ response (.valueBits true) t = some (word ||| zm) ∧
      response (.zMask true) t = some zm ∧ response (.zMask false) t = some (~~~ zm)

/-- R100 (with R86, R87, R92 to R97): from `Idle` no command sequence with fewer than 41 falling edges reaches `Done`: one for
the pilot and two for each of the 20 bits. -/
def Obligations.DoneNeedsFortyOneFallingEdges : Prop :=
  ∀ (cs : List Instr) (s t : State), s.state = .idle → (∀ i ∈ cs, i.wellFormed s.cfg.wTs = true) →
    deliver cs s = .next t → t.state = .done → 41 ≤ (cs.filter isFalling).length

/-- R99: shifting every timestamp, and `last_event_time`, by the same amount modulo `2^W_TS` changes nothing else, for a stream
without a RESET (which sets `last_event_time` to an unshifted 0). -/
def Obligations.TimeShiftChangesNothing : Prop :=
  ∀ (cs : List Instr) (s t : State) (d : Nat), good s = true →
    (∀ i ∈ cs, i.wellFormed s.cfg.wTs = true ∧ i ≠ .reset) → deliver cs s = .next t →
    deliver (cs.map (shiftInstr s.cfg.wTs d)) (shiftState d s) = .next (shiftState d t)

/-- R160, R122: what an earlier frame left in the buffers and in `pending_symbol` never shows in the next completed one: two
states at the start of a frame that differ only there reach the same `Done` state. -/
def Obligations.StaleFrameNeverShows : Prop :=
  ∀ (cs : List Instr) (s t : State) (v z : BitBuf) (p : Symbol), good s = true →
    good { s with valueBuf := v, zBuf := z, pendingSymbol := p } = true →
    s.state ≠ .done → s.bitIndex = 0 → s.halfSymbolPending = false →
    (∀ i ∈ cs, i.wellFormed s.cfg.wTs = true) → deliver cs s = .next t → t.state = .done →
    deliver cs { s with valueBuf := v, zBuf := z, pendingSymbol := p } = .next t
end

