-- ==== Sys2Proof/Laws/Decode.lean ====
section
/-! SUPPORT. What decoding and encoding do, said once: one equation per opcode (30_encoding.md R52), an inversion lemma, and the
fields of an assembled word. -/

namespace Sys2Proof

theorem decode_op0 {wTs : Nat} {w : Nat} (h : opField w = 0) : decode wTs w = .ok .nop := by
  simp [decode, h]

theorem decode_op1 {wTs : Nat} {w : Nat} (h : opField w = 1) :
    decode wTs w = if argField w then .ok (.edgeR (tsField wTs w)) else .ok (.edgeF (tsField wTs w)) := by
  simp [decode, h]

theorem decode_op2 {wTs : Nat} {w : Nat} (h : opField w = 2) : decode wTs w = .ok .reset := by
  simp [decode, h]

theorem decode_op3 {wTs : Nat} {w : Nat} (h : opField w = 3) : decode wTs w = .ok .isReady := by
  simp [decode, h]

theorem decode_op4 {wTs : Nat} {w : Nat} (h : opField w = 4) : decode wTs w = .ok (.valueBits (argField w)) := by
  simp [decode, h]

theorem decode_op5 {wTs : Nat} {w : Nat} (h : opField w = 5) : decode wTs w = .ok (.zMask (argField w)) := by
  simp [decode, h]

theorem opField_lt (w : Nat) : opField w < 8 := Nat.mod_lt _ (by decide)

theorem tsField_lt (wTs : Nat) (w : Nat) : tsField wTs w < 2 ^ wTs := Nat.mod_lt _ (Nat.two_pow_pos wTs)

/-- Every command that decoding yields, with the opcode it comes from. -/
theorem decode_ok_cases {wTs : Nat} {w : Nat} {i : Instr} (h : decode wTs w = .ok i) :
    (opField w = 0 ∧ i = .nop) ∨
    (opField w = 1 ∧ argField w = true ∧ i = .edgeR (tsField wTs w)) ∨
    (opField w = 1 ∧ argField w = false ∧ i = .edgeF (tsField wTs w)) ∨
    (opField w = 2 ∧ i = .reset) ∨ (opField w = 3 ∧ i = .isReady) ∨
    (opField w = 4 ∧ i = .valueBits (argField w)) ∨ (opField w = 5 ∧ i = .zMask (argField w)) := by
  unfold decode at h
  split at h
  · simp_all
  · split at h <;> simp_all
  all_goals simp_all

/-- Decoding yields well-formed commands only. -/
theorem decode_wellFormed {wTs : Nat} {w : Nat} {i : Instr} (h : decode wTs w = .ok i) :
    i.wellFormed wTs = true := by
  rcases decode_ok_cases h with ⟨-, rfl⟩ | ⟨-, -, rfl⟩ | ⟨-, -, rfl⟩ | ⟨-, rfl⟩ | ⟨-, rfl⟩ | ⟨-, rfl⟩ | ⟨-, rfl⟩ <;>
    simp [Instr.wellFormed, tsFits, tsField_lt]

@[simp] theorem opField_cmdWord (ts : Nat) (arg : Bool) {op : Nat} (h : op < 8) : opField (cmdWord ts arg op) = op := by
  simp only [opField, cmdWord]; omega

@[simp] theorem argField_cmdWord (ts : Nat) (arg : Bool) {op : Nat} (h : op < 8) : argField (cmdWord ts arg op) = arg := by
  have hb : arg.toNat ≤ 1 := Bool.toNat_le arg
  have : (16 * ts + 8 * arg.toNat + op) / 8 % 2 = arg.toNat := by omega
  rw [argField, cmdWord, this]
  cases arg <;> rfl

@[simp] theorem tsField_cmdWord {wTs ts : Nat} (arg : Bool) {op : Nat} (h : op < 8) (hts : ts < 2 ^ wTs) :
    tsField wTs (cmdWord ts arg op) = ts := by
  have hb : arg.toNat ≤ 1 := Bool.toNat_le arg
  have : (16 * ts + 8 * arg.toNat + op) / 16 = ts := by omega
  rw [tsField, cmdWord, this, Nat.mod_eq_of_lt hts]

end Sys2Proof
end

