-- ==== Sys2Proof/Laws/State.lean ====
section
/-! SUPPORT. One lemma per field per named update of State, so that no proof unfolds a record update. -/

namespace Sys2Proof.Machine

variable (s : State)

/-! ### respond -/

@[simp] theorem respond_cfg (r : Rsp) : (respond r s).cfg = s.cfg := rfl
@[simp] theorem respond_state (r : Rsp) : (respond r s).state = s.state := rfl
@[simp] theorem respond_lastEventTime (r : Rsp) : (respond r s).lastEventTime = s.lastEventTime := rfl
@[simp] theorem respond_periodLow (r : Rsp) : (respond r s).periodLow = s.periodLow := rfl
@[simp] theorem respond_periodHigh (r : Rsp) : (respond r s).periodHigh = s.periodHigh := rfl
@[simp] theorem respond_bitIndex (r : Rsp) : (respond r s).bitIndex = s.bitIndex := rfl
@[simp] theorem respond_halfSymbolPending (r : Rsp) : (respond r s).halfSymbolPending = s.halfSymbolPending := rfl
@[simp] theorem respond_pendingSymbol (r : Rsp) : (respond r s).pendingSymbol = s.pendingSymbol := rfl
@[simp] theorem respond_valueBuf (r : Rsp) : (respond r s).valueBuf = s.valueBuf := rfl
@[simp] theorem respond_zBuf (r : Rsp) : (respond r s).zBuf = s.zBuf := rfl
@[simp] theorem respond_rsp (r : Rsp) : (respond r s).rsp = r := rfl
@[simp] theorem respond_cmds (r : Rsp) : (respond r s).cmds = s.cmds := rfl

/-! ### stamp -/

@[simp] theorem stamp_cfg (ts : Nat) : (stamp ts s).cfg = s.cfg := rfl
@[simp] theorem stamp_state (ts : Nat) : (stamp ts s).state = s.state := rfl
@[simp] theorem stamp_lastEventTime (ts : Nat) : (stamp ts s).lastEventTime = ts := rfl
@[simp] theorem stamp_periodLow (ts : Nat) : (stamp ts s).periodLow = s.periodLow := rfl
@[simp] theorem stamp_periodHigh (ts : Nat) : (stamp ts s).periodHigh = s.periodHigh := rfl
@[simp] theorem stamp_bitIndex (ts : Nat) : (stamp ts s).bitIndex = s.bitIndex := rfl
@[simp] theorem stamp_halfSymbolPending (ts : Nat) : (stamp ts s).halfSymbolPending = s.halfSymbolPending := rfl
@[simp] theorem stamp_pendingSymbol (ts : Nat) : (stamp ts s).pendingSymbol = s.pendingSymbol := rfl
@[simp] theorem stamp_valueBuf (ts : Nat) : (stamp ts s).valueBuf = s.valueBuf := rfl
@[simp] theorem stamp_zBuf (ts : Nat) : (stamp ts s).zBuf = s.zBuf := rfl
@[simp] theorem stamp_rsp (ts : Nat) : (stamp ts s).rsp = s.rsp := rfl
@[simp] theorem stamp_cmds (ts : Nat) : (stamp ts s).cmds = s.cmds := rfl

/-! ### setLow -/

@[simp] theorem setLow_cfg (p : Period) : (setLow p s).cfg = s.cfg := rfl
@[simp] theorem setLow_state (p : Period) : (setLow p s).state = s.state := rfl
@[simp] theorem setLow_lastEventTime (p : Period) : (setLow p s).lastEventTime = s.lastEventTime := rfl
@[simp] theorem setLow_periodLow (p : Period) : (setLow p s).periodLow = p := rfl
@[simp] theorem setLow_periodHigh (p : Period) : (setLow p s).periodHigh = s.periodHigh := rfl
@[simp] theorem setLow_bitIndex (p : Period) : (setLow p s).bitIndex = s.bitIndex := rfl
@[simp] theorem setLow_halfSymbolPending (p : Period) : (setLow p s).halfSymbolPending = s.halfSymbolPending := rfl
@[simp] theorem setLow_pendingSymbol (p : Period) : (setLow p s).pendingSymbol = s.pendingSymbol := rfl
@[simp] theorem setLow_valueBuf (p : Period) : (setLow p s).valueBuf = s.valueBuf := rfl
@[simp] theorem setLow_zBuf (p : Period) : (setLow p s).zBuf = s.zBuf := rfl
@[simp] theorem setLow_rsp (p : Period) : (setLow p s).rsp = s.rsp := rfl
@[simp] theorem setLow_cmds (p : Period) : (setLow p s).cmds = s.cmds := rfl

/-! ### setHigh -/

@[simp] theorem setHigh_cfg (p : Period) : (setHigh p s).cfg = s.cfg := rfl
@[simp] theorem setHigh_state (p : Period) : (setHigh p s).state = s.state := rfl
@[simp] theorem setHigh_lastEventTime (p : Period) : (setHigh p s).lastEventTime = s.lastEventTime := rfl
@[simp] theorem setHigh_periodLow (p : Period) : (setHigh p s).periodLow = s.periodLow := rfl
@[simp] theorem setHigh_periodHigh (p : Period) : (setHigh p s).periodHigh = p := rfl
@[simp] theorem setHigh_bitIndex (p : Period) : (setHigh p s).bitIndex = s.bitIndex := rfl
@[simp] theorem setHigh_halfSymbolPending (p : Period) : (setHigh p s).halfSymbolPending = s.halfSymbolPending := rfl
@[simp] theorem setHigh_pendingSymbol (p : Period) : (setHigh p s).pendingSymbol = s.pendingSymbol := rfl
@[simp] theorem setHigh_valueBuf (p : Period) : (setHigh p s).valueBuf = s.valueBuf := rfl
@[simp] theorem setHigh_zBuf (p : Period) : (setHigh p s).zBuf = s.zBuf := rfl
@[simp] theorem setHigh_rsp (p : Period) : (setHigh p s).rsp = s.rsp := rfl
@[simp] theorem setHigh_cmds (p : Period) : (setHigh p s).cmds = s.cmds := rfl

/-! ### enterReading -/

@[simp] theorem enterReading_cfg : (enterReading s).cfg = s.cfg := rfl
@[simp] theorem enterReading_state : (enterReading s).state = .reading := rfl
@[simp] theorem enterReading_lastEventTime : (enterReading s).lastEventTime = s.lastEventTime := rfl
@[simp] theorem enterReading_periodLow : (enterReading s).periodLow = s.periodLow := rfl
@[simp] theorem enterReading_periodHigh : (enterReading s).periodHigh = s.periodHigh := rfl
@[simp] theorem enterReading_bitIndex : (enterReading s).bitIndex = 0 := rfl
@[simp] theorem enterReading_halfSymbolPending : (enterReading s).halfSymbolPending = false := rfl
@[simp] theorem enterReading_pendingSymbol : (enterReading s).pendingSymbol = s.pendingSymbol := rfl
@[simp] theorem enterReading_valueBuf : (enterReading s).valueBuf = s.valueBuf := rfl
@[simp] theorem enterReading_zBuf : (enterReading s).zBuf = s.zBuf := rfl
@[simp] theorem enterReading_rsp : (enterReading s).rsp = s.rsp := rfl
@[simp] theorem enterReading_cmds : (enterReading s).cmds = s.cmds := rfl

/-! ### resync -/

@[simp] theorem resync_cfg : (resync s).cfg = s.cfg := rfl
@[simp] theorem resync_state : (resync s).state = s.state := rfl
@[simp] theorem resync_lastEventTime : (resync s).lastEventTime = s.lastEventTime := rfl
@[simp] theorem resync_periodLow : (resync s).periodLow = s.periodLow := rfl
@[simp] theorem resync_periodHigh : (resync s).periodHigh = s.periodHigh := rfl
@[simp] theorem resync_bitIndex : (resync s).bitIndex = 0 := rfl
@[simp] theorem resync_halfSymbolPending : (resync s).halfSymbolPending = false := rfl
@[simp] theorem resync_pendingSymbol : (resync s).pendingSymbol = s.pendingSymbol := rfl
@[simp] theorem resync_valueBuf : (resync s).valueBuf = s.valueBuf := rfl
@[simp] theorem resync_zBuf : (resync s).zBuf = s.zBuf := rfl
@[simp] theorem resync_rsp : (resync s).rsp = s.rsp := rfl
@[simp] theorem resync_cmds : (resync s).cmds = s.cmds := rfl

/-! ### abort -/

@[simp] theorem abort_cfg : (abort s).cfg = s.cfg := rfl
@[simp] theorem abort_state : (abort s).state = .idle := rfl
@[simp] theorem abort_lastEventTime : (abort s).lastEventTime = s.lastEventTime := rfl
@[simp] theorem abort_periodLow : (abort s).periodLow = s.periodLow := rfl
@[simp] theorem abort_periodHigh : (abort s).periodHigh = s.periodHigh := rfl
@[simp] theorem abort_bitIndex : (abort s).bitIndex = 0 := rfl
@[simp] theorem abort_halfSymbolPending : (abort s).halfSymbolPending = false := rfl
@[simp] theorem abort_pendingSymbol : (abort s).pendingSymbol = s.pendingSymbol := rfl
@[simp] theorem abort_valueBuf : (abort s).valueBuf = s.valueBuf := rfl
@[simp] theorem abort_zBuf : (abort s).zBuf = s.zBuf := rfl
@[simp] theorem abort_rsp : (abort s).rsp = s.rsp := rfl
@[simp] theorem abort_cmds : (abort s).cmds = s.cmds := rfl

/-! ### capture -/

@[simp] theorem capture_cfg (b : Symbol) : (capture b s).cfg = s.cfg := rfl
@[simp] theorem capture_state (b : Symbol) : (capture b s).state = s.state := rfl
@[simp] theorem capture_lastEventTime (b : Symbol) : (capture b s).lastEventTime = s.lastEventTime := rfl
@[simp] theorem capture_periodLow (b : Symbol) : (capture b s).periodLow = s.periodLow := rfl
@[simp] theorem capture_periodHigh (b : Symbol) : (capture b s).periodHigh = s.periodHigh := rfl
@[simp] theorem capture_bitIndex (b : Symbol) : (capture b s).bitIndex = s.bitIndex := rfl
@[simp] theorem capture_halfSymbolPending (b : Symbol) : (capture b s).halfSymbolPending = true := rfl
@[simp] theorem capture_pendingSymbol (b : Symbol) : (capture b s).pendingSymbol = b := rfl
@[simp] theorem capture_valueBuf (b : Symbol) : (capture b s).valueBuf = s.valueBuf := rfl
@[simp] theorem capture_zBuf (b : Symbol) : (capture b s).zBuf = s.zBuf := rfl
@[simp] theorem capture_rsp (b : Symbol) : (capture b s).rsp = s.rsp := rfl
@[simp] theorem capture_cmds (b : Symbol) : (capture b s).cmds = s.cmds := rfl

/-! ### clearHalf -/

@[simp] theorem clearHalf_cfg : (clearHalf s).cfg = s.cfg := rfl
@[simp] theorem clearHalf_state : (clearHalf s).state = s.state := rfl
@[simp] theorem clearHalf_lastEventTime : (clearHalf s).lastEventTime = s.lastEventTime := rfl
@[simp] theorem clearHalf_periodLow : (clearHalf s).periodLow = s.periodLow := rfl
@[simp] theorem clearHalf_periodHigh : (clearHalf s).periodHigh = s.periodHigh := rfl
@[simp] theorem clearHalf_bitIndex : (clearHalf s).bitIndex = s.bitIndex := rfl
@[simp] theorem clearHalf_halfSymbolPending : (clearHalf s).halfSymbolPending = false := rfl
@[simp] theorem clearHalf_pendingSymbol : (clearHalf s).pendingSymbol = s.pendingSymbol := rfl
@[simp] theorem clearHalf_valueBuf : (clearHalf s).valueBuf = s.valueBuf := rfl
@[simp] theorem clearHalf_zBuf : (clearHalf s).zBuf = s.zBuf := rfl
@[simp] theorem clearHalf_rsp : (clearHalf s).rsp = s.rsp := rfl
@[simp] theorem clearHalf_cmds : (clearHalf s).cmds = s.cmds := rfl

/-! ### advance -/

@[simp] theorem advance_cfg : (advance s).cfg = s.cfg := rfl
@[simp] theorem advance_state : (advance s).state = s.state := rfl
@[simp] theorem advance_lastEventTime : (advance s).lastEventTime = s.lastEventTime := rfl
@[simp] theorem advance_periodLow : (advance s).periodLow = s.periodLow := rfl
@[simp] theorem advance_periodHigh : (advance s).periodHigh = s.periodHigh := rfl
@[simp] theorem advance_bitIndex : (advance s).bitIndex = s.bitIndex + 1 := rfl
@[simp] theorem advance_halfSymbolPending : (advance s).halfSymbolPending = s.halfSymbolPending := rfl
@[simp] theorem advance_pendingSymbol : (advance s).pendingSymbol = s.pendingSymbol := rfl
@[simp] theorem advance_valueBuf : (advance s).valueBuf = s.valueBuf := rfl
@[simp] theorem advance_zBuf : (advance s).zBuf = s.zBuf := rfl
@[simp] theorem advance_rsp : (advance s).rsp = s.rsp := rfl
@[simp] theorem advance_cmds : (advance s).cmds = s.cmds := rfl

/-! ### store -/

@[simp] theorem store_cfg (t : Tri) : (store t s).cfg = s.cfg := rfl
@[simp] theorem store_state (t : Tri) : (store t s).state = s.state := rfl
@[simp] theorem store_lastEventTime (t : Tri) : (store t s).lastEventTime = s.lastEventTime := rfl
@[simp] theorem store_periodLow (t : Tri) : (store t s).periodLow = s.periodLow := rfl
@[simp] theorem store_periodHigh (t : Tri) : (store t s).periodHigh = s.periodHigh := rfl
@[simp] theorem store_bitIndex (t : Tri) : (store t s).bitIndex = s.bitIndex := rfl
@[simp] theorem store_halfSymbolPending (t : Tri) : (store t s).halfSymbolPending = s.halfSymbolPending := rfl
@[simp] theorem store_pendingSymbol (t : Tri) : (store t s).pendingSymbol = s.pendingSymbol := rfl
@[simp] theorem store_valueBuf (t : Tri) : (store t s).valueBuf = bufWrite s.valueBuf s.bitIndex.toNat (triValue t) := rfl
@[simp] theorem store_zBuf (t : Tri) : (store t s).zBuf = bufWrite s.zBuf s.bitIndex.toNat (triZ t) := rfl
@[simp] theorem store_rsp (t : Tri) : (store t s).rsp = s.rsp := rfl
@[simp] theorem store_cmds (t : Tri) : (store t s).cmds = s.cmds := rfl

/-! ### clearAll -/

@[simp] theorem clearAll_cfg : (clearAll s).cfg = s.cfg := rfl
@[simp] theorem clearAll_state : (clearAll s).state = .idle := rfl
@[simp] theorem clearAll_lastEventTime : (clearAll s).lastEventTime = 0 := rfl
@[simp] theorem clearAll_periodLow : (clearAll s).periodLow = 0 := rfl
@[simp] theorem clearAll_periodHigh : (clearAll s).periodHigh = 0 := rfl
@[simp] theorem clearAll_bitIndex : (clearAll s).bitIndex = 0 := rfl
@[simp] theorem clearAll_halfSymbolPending : (clearAll s).halfSymbolPending = false := rfl
@[simp] theorem clearAll_pendingSymbol : (clearAll s).pendingSymbol = false := rfl
@[simp] theorem clearAll_valueBuf : (clearAll s).valueBuf = 0 := rfl
@[simp] theorem clearAll_zBuf : (clearAll s).zBuf = 0 := rfl
@[simp] theorem clearAll_rsp : (clearAll s).rsp = s.rsp := rfl
@[simp] theorem clearAll_cmds : (clearAll s).cmds = s.cmds := rfl

/-! ### presentNext -/

@[simp] theorem presentNext_cfg (w : Nat) : (presentNext w s).cfg = s.cfg := rfl
@[simp] theorem presentNext_state (w : Nat) : (presentNext w s).state = s.state := rfl
@[simp] theorem presentNext_lastEventTime (w : Nat) : (presentNext w s).lastEventTime = s.lastEventTime := rfl
@[simp] theorem presentNext_periodLow (w : Nat) : (presentNext w s).periodLow = s.periodLow := rfl
@[simp] theorem presentNext_periodHigh (w : Nat) : (presentNext w s).periodHigh = s.periodHigh := rfl
@[simp] theorem presentNext_bitIndex (w : Nat) : (presentNext w s).bitIndex = s.bitIndex := rfl
@[simp] theorem presentNext_halfSymbolPending (w : Nat) : (presentNext w s).halfSymbolPending = s.halfSymbolPending := rfl
@[simp] theorem presentNext_pendingSymbol (w : Nat) : (presentNext w s).pendingSymbol = s.pendingSymbol := rfl
@[simp] theorem presentNext_valueBuf (w : Nat) : (presentNext w s).valueBuf = s.valueBuf := rfl
@[simp] theorem presentNext_zBuf (w : Nat) : (presentNext w s).zBuf = s.zBuf := rfl
@[simp] theorem presentNext_rsp (w : Nat) : (presentNext w s).rsp = s.rsp := rfl
@[simp] theorem presentNext_cmds (w : Nat) : (presentNext w s).cmds = w :: s.cmds := rfl

/-! ### present -/

@[simp] theorem present_cfg (w : Nat) : (present w s).cfg = s.cfg := rfl
@[simp] theorem present_state (w : Nat) : (present w s).state = s.state := rfl
@[simp] theorem present_lastEventTime (w : Nat) : (present w s).lastEventTime = s.lastEventTime := rfl
@[simp] theorem present_periodLow (w : Nat) : (present w s).periodLow = s.periodLow := rfl
@[simp] theorem present_periodHigh (w : Nat) : (present w s).periodHigh = s.periodHigh := rfl
@[simp] theorem present_bitIndex (w : Nat) : (present w s).bitIndex = s.bitIndex := rfl
@[simp] theorem present_halfSymbolPending (w : Nat) : (present w s).halfSymbolPending = s.halfSymbolPending := rfl
@[simp] theorem present_pendingSymbol (w : Nat) : (present w s).pendingSymbol = s.pendingSymbol := rfl
@[simp] theorem present_valueBuf (w : Nat) : (present w s).valueBuf = s.valueBuf := rfl
@[simp] theorem present_zBuf (w : Nat) : (present w s).zBuf = s.zBuf := rfl
@[simp] theorem present_rsp (w : Nat) : (present w s).rsp = s.rsp := rfl
@[simp] theorem present_cmds (w : Nat) : (present w s).cmds = s.cmds ++ [w] := rfl

/-! ### shiftState -/

@[simp] theorem shiftState_cfg (d : Nat) : (shiftState d s).cfg = s.cfg := rfl
@[simp] theorem shiftState_state (d : Nat) : (shiftState d s).state = s.state := rfl
@[simp] theorem shiftState_lastEventTime (d : Nat) : (shiftState d s).lastEventTime = (s.lastEventTime + d) % 2 ^ s.cfg.wTs := rfl
@[simp] theorem shiftState_periodLow (d : Nat) : (shiftState d s).periodLow = s.periodLow := rfl
@[simp] theorem shiftState_periodHigh (d : Nat) : (shiftState d s).periodHigh = s.periodHigh := rfl
@[simp] theorem shiftState_bitIndex (d : Nat) : (shiftState d s).bitIndex = s.bitIndex := rfl
@[simp] theorem shiftState_halfSymbolPending (d : Nat) : (shiftState d s).halfSymbolPending = s.halfSymbolPending := rfl
@[simp] theorem shiftState_pendingSymbol (d : Nat) : (shiftState d s).pendingSymbol = s.pendingSymbol := rfl
@[simp] theorem shiftState_valueBuf (d : Nat) : (shiftState d s).valueBuf = s.valueBuf := rfl
@[simp] theorem shiftState_zBuf (d : Nat) : (shiftState d s).zBuf = s.zBuf := rfl
@[simp] theorem shiftState_rsp (d : Nat) : (shiftState d s).rsp = s.rsp := rfl
@[simp] theorem shiftState_cmds (d : Nat) : (shiftState d s).cmds = s.cmds := rfl

/-! ### the construction state -/

@[simp] theorem initial_cfg (c : Cfg) : (State.initial c).cfg = c := rfl
@[simp] theorem initial_state (c : Cfg) : (State.initial c).state = .idle := rfl
@[simp] theorem initial_lastEventTime (c : Cfg) : (State.initial c).lastEventTime = 0 := rfl
@[simp] theorem initial_periodLow (c : Cfg) : (State.initial c).periodLow = 0 := rfl
@[simp] theorem initial_periodHigh (c : Cfg) : (State.initial c).periodHigh = 0 := rfl
@[simp] theorem initial_bitIndex (c : Cfg) : (State.initial c).bitIndex = 0 := rfl
@[simp] theorem initial_halfSymbolPending (c : Cfg) : (State.initial c).halfSymbolPending = false := rfl
@[simp] theorem initial_pendingSymbol (c : Cfg) : (State.initial c).pendingSymbol = false := rfl
@[simp] theorem initial_valueBuf (c : Cfg) : (State.initial c).valueBuf = 0 := rfl
@[simp] theorem initial_zBuf (c : Cfg) : (State.initial c).zBuf = 0 := rfl
@[simp] theorem initial_rsp (c : Cfg) : (State.initial c).rsp = 0 := rfl
@[simp] theorem initial_cmds (c : Cfg) : (State.initial c).cmds = [] := rfl

end Sys2Proof.Machine
end

