-- ==== Sys2Proof/Laws/Ops.lean ====
section
/-! SUPPORT. For each shared operation, one lemma that says everything it can do. Proofs cite these and do not unfold the
operation. -/

namespace Sys2Proof.Machine

/-! ### Operands -/

theorem delta_lt (wTs ts last : Nat) : delta wTs ts last < 2 ^ wTs := by
  have hp : (0 : Int) < ((2 ^ wTs : Nat) : Int) := by exact_mod_cast Nat.two_pow_pos wTs
  have h := Int.emod_lt_of_pos ((ts : Int) - last) hp
  have h0 := Int.emod_nonneg ((ts : Int) - last) (ne_of_gt hp)
  simp only [delta]
  omega

/-- The delta is the one natural below `2^W_TS` that is the difference modulo `2^W_TS` (R7). -/
theorem delta_spec (wTs ts last : Nat) : (last + delta wTs ts last) % 2 ^ wTs = ts % 2 ^ wTs := by
  have hp : (0 : Int) < ((2 ^ wTs : Nat) : Int) := by exact_mod_cast Nat.two_pow_pos wTs
  have h0 := Int.emod_nonneg ((ts : Int) - last) (ne_of_gt hp)
  have hd : ((delta wTs ts last : Nat) : Int) = ((ts : Int) - last) % ((2 ^ wTs : Nat) : Int) := Int.toNat_of_nonneg h0
  have : (((last + delta wTs ts last) % 2 ^ wTs : Nat) : Int) = ((ts % 2 ^ wTs : Nat) : Int) := by
    rw [Int.natCast_emod, Int.natCast_emod, Int.natCast_add, hd, Int.add_emod_emod]
    congr 1
    omega
  exact_mod_cast this

/-- An interval shorter than the wrap is measured as it is, also across the wrap (R82, R99). -/
theorem delta_of_lt {wTs last d : Nat} (h : d < 2 ^ wTs) : delta wTs ((last + d) % 2 ^ wTs) last = d := by
  have hp : (0 : Int) < ((2 ^ wTs : Nat) : Int) := by exact_mod_cast Nat.two_pow_pos wTs
  simp only [delta]
  rw [Int.natCast_emod, Int.emod_sub_emod]
  have : ((last + d : Nat) : Int) - (last : Int) = (d : Int) := by omega
  rw [this, Int.emod_eq_of_lt (by omega) (by exact_mod_cast h)]
  rfl

@[simp] theorem saturate_toNat (d : Nat) : (saturate d).toNat = min d 65535 := by
  simp only [saturate, BitVec.toNat_ofNat, periodMax]
  omega

theorem inShort_iff {c : Cfg} {p : Nat} : inShort c p = true ↔ c.shortMin ≤ p ∧ p ≤ c.shortMax := by simp [inShort]

theorem inLong_iff {c : Cfg} {p : Nat} : inLong c p = true ↔ c.longMin ≤ p ∧ p ≤ c.longMax := by simp [inLong]

theorem isPilot_iff {c : Cfg} {p : Nat} : isPilot c p = true ↔ c.pilotMin < p := by simp [isPilot]

/-! ### Buffers -/

theorem bufRead_bufWrite (buf : BitBuf) {k : Nat} (b : Bool) (hk : k < 24) (j : Nat) :
    bufRead (bufWrite buf k b) j = if j = k then b else bufRead buf j := by
  by_cases hj : j = k
  · subst hj; cases b <;> simp [bufRead, bufWrite, hk]
  · by_cases h24 : j < 24
    · cases b <;> simp [bufRead, bufWrite, hj, h24]
    · have h24' : 24 ≤ j := Nat.le_of_not_lt h24
      cases b <;> simp [bufRead, hj, BitVec.getLsbD_of_ge _ j h24']

@[simp] theorem bufRead_zero (k : Nat) : bufRead 0 k = false := by simp [bufRead]

theorem triOf_stored (t : Tri) : triOf (triZ t) (triValue t) = some t := by cases t <;> rfl

theorem collect_getLsbD (f : Nat → Bool) {i : Nat} (hi : i < 16) : (collect f).getLsbD i = f i := by
  rw [collect, BitVec.getLsbD_setWidth, BitVec.getLsbD_ofBoolListLE]
  simp [hi, List.getD_eq_getElem?_getD]

/-! ### Classification and pairing -/

theorem pilotCheck_cases (s : State) :
    (s.cfg.pilotMin < s.periodLow.toNat ∧ inShort s.cfg s.periodHigh.toNat = true ∧ pilotCheck s = enterReading s) ∨
    (¬ (s.cfg.pilotMin < s.periodLow.toNat ∧ inShort s.cfg s.periodHigh.toNat = true) ∧ pilotCheck s = s) := by
  by_cases h : s.cfg.pilotMin < s.periodLow.toNat ∧ inShort s.cfg s.periodHigh.toNat = true
  · exact .inl ⟨h.1, h.2, by simp [pilotCheck, isPilot, h.1, h.2]⟩
  · refine .inr ⟨h, ?_⟩
    have : (isPilot s.cfg s.periodLow.toNat && inShort s.cfg s.periodHigh.toNat) = false := by
      simpa [isPilot, Bool.and_eq_false_iff, imp_iff_not_or] using h
    simp [pilotCheck, this]

theorem classify_cases (c : Cfg) (pl ph : Nat) :
    (inShort c pl = true ∧ inLong c ph = true ∧ classify c pl ph = .sym false) ∨
    (inLong c pl = true ∧ inShort c ph = true ∧ classify c pl ph = .sym true) ∨
    (isPilot c pl = true ∧ inShort c ph = true ∧ classify c pl ph = .resync) ∨
    (¬ (inShort c pl = true ∧ inLong c ph = true) ∧ ¬ (inLong c pl = true ∧ inShort c ph = true) ∧
      ¬ (isPilot c pl = true ∧ inShort c ph = true) ∧ classify c pl ph = .invalid) := by
  unfold classify
  split
  · simp_all
  · split
    · simp_all
    · split <;> simp_all

theorem complete_cases (s : State) :
    (s.bitIndex.toNat = 20 ∧ complete s = { s with state := .done }) ∨ (s.bitIndex.toNat ≠ 20 ∧ complete s = s) := by
  by_cases h : s.bitIndex.toNat = 20
  · exact .inl ⟨h, by simp [complete, frameBits, h]⟩
  · exact .inr ⟨h, by simp [complete, frameBits, h]⟩

theorem syncBit_cases (a b : Symbol) (s : State) :
    (a = false ∧ b = true ∧ syncBit a b s = advance s) ∨ (¬ (a = false ∧ b = true) ∧ syncBit a b s = abort s) := by
  cases a <;> cases b <;> simp [syncBit]

theorem payloadBit_cases (a b : Symbol) (s : State) :
    (∃ t, payloadTri a b = some t ∧ payloadBit a b s = complete (advance (store t s))) ∨
    (a = false ∧ b = true ∧ payloadBit a b s = abort s) := by
  cases a <;> cases b <;> simp [payloadBit, payloadTri]

theorem decodePair_cases (a b : Symbol) (s : State) :
    (s.bitIndex.toNat < 2 ∧ decodePair a b s = syncBit a b (clearHalf s)) ∨
    (2 ≤ s.bitIndex.toNat ∧ decodePair a b s = payloadBit a b (clearHalf s)) := by
  by_cases h : s.bitIndex.toNat < 2
  · exact .inl ⟨h, by simp [decodePair, syncBits, h]⟩
  · exact .inr ⟨Nat.le_of_not_lt h, by simp [decodePair, syncBits, h]⟩

theorem pair_cases (b : Symbol) (s : State) :
    (s.halfSymbolPending = false ∧ pair b s = capture b s) ∨
    (s.halfSymbolPending = true ∧ pair b s = decodePair s.pendingSymbol b s) := by
  cases h : s.halfSymbolPending <;> simp [pair, h]

theorem classifyFalling_cases (s : State) :
    (s.state = .idle ∧ classifyFalling s = pilotCheck s) ∨
    (s.state = .reading ∧ classifyFalling s = applyClass (classify s.cfg s.periodLow.toNat s.periodHigh.toNat) s) ∨
    (s.state = .done ∧ classifyFalling s = s) := by
  cases h : s.state <;> simp [classifyFalling, h]

/-! ### Edge intake -/

theorem accepts_iff (ts : Nat) (s : State) : accepts ts s = true ↔ Accepted ts s := by
  rw [accepts, Bool.and_eq_true, decide_eq_true_eq, decide_eq_true_eq]
  rfl

theorem intake_cases (ts : Nat) (f : Period → State → State) (s : State) :
    (Accepted ts s ∧ intake ts f s = f (saturate (edgeDelta ts s)) (stamp ts (respond 0 s))) ∨
    (¬ Accepted ts s ∧ intake ts f s = respond 0 s) := by
  by_cases h : Accepted ts s
  · exact .inl ⟨h, by simp [intake, (accepts_iff ts s).2 h]⟩
  · have : accepts ts s = false := by simpa using fun e => h ((accepts_iff ts s).1 e)
    exact .inr ⟨h, by simp [intake, this]⟩

/-! ### Commands and steps -/

theorem perform_cases (f : State → State) (s : State) :
    (good s = true ∧ perform f s = .next (f s)) ∨
    (cfgValid s.cfg = true ∧ legal s = false ∧ perform f s = .refused .illFormedState) ∨
    (cfgValid s.cfg = false ∧ perform f s = .refused .configInvalid) := by
  cases hc : cfgValid s.cfg <;> cases hl : legal s <;> simp [perform, good, hc, hl]

theorem perform_eq_next {f : State → State} {s t : State} : perform f s = .next t ↔ good s = true ∧ t = f s := by
  rcases perform_cases f s with ⟨h, e⟩ | ⟨h, h', e⟩ | ⟨h, e⟩
  · rw [e]; simp [h, eq_comm]
  · rw [e]; simp [good, h, h']
  · rw [e]; simp [good, h]

theorem perform_of_good {f : State → State} {s : State} (h : good s = true) : perform f s = .next (f s) :=
  perform_eq_next.2 ⟨h, rfl⟩

/-! Each command is `perform` of one effect. -/

theorem exec_nop (s : State) : exec .nop s = perform (respond 0) s := rfl

theorem exec_edgeR (ts : Nat) (s : State) : exec (.edgeR ts) s = perform (intake ts setLow) s := rfl

theorem exec_edgeF (ts : Nat) (s : State) :
    exec (.edgeF ts) s = perform (intake ts fun p s => classifyFalling (setHigh p s)) s := rfl

theorem exec_reset (s : State) : exec .reset s = perform (fun s => respond 0 (clearAll s)) s := rfl

theorem exec_isReady (s : State) : exec .isReady s = perform (fun s => respond (readyRsp s) s) s := rfl

theorem exec_valueBits (zFill : Bool) (s : State) :
    exec (.valueBits zFill) s = perform (fun s => respond (collect (valueBit zFill s)) s) s := rfl

theorem exec_zMask (zIsOne : Bool) (s : State) :
    exec (.zMask zIsOne) s = perform (fun s => respond (collect (maskBit zIsOne s)) s) s := rfl


theorem exec_effect (i : Instr) : ∃ f : State → State, ∀ s, exec i s = perform f s := by
  cases i <;> exact ⟨_, fun _ => rfl⟩

/-- A command answers a next state exactly in the states it has a meaning on. -/
theorem exec_completes_iff (i : Instr) (s : State) : (∃ t, exec i s = .next t) ↔ good s = true := by
  obtain ⟨f, hf⟩ := exec_effect i
  simp [hf, perform_eq_next]

/-- Everything one step can do when it answers a next state. -/
theorem step_next_cases {s t : State} (h : step s = .next t) :
    (s.cmds = [] ∧ t = s) ∨
    (∃ w rest i, s.cmds = w :: rest ∧ decode s.cfg.wTs w = .ok i ∧ exec i { s with cmds := rest } = .next t) := by
  cases hc : s.cmds with
  | nil => exact .inl ⟨rfl, by simpa [step, takeCmd, hc, eq_comm] using h⟩
  | cons w rest =>
    right
    cases hd : decode s.cfg.wTs w with
    | error e => cases e; simp [step, takeCmd, hc, hd] at h
    | ok i => exact ⟨w, rest, i, rfl, hd, by simpa [step, takeCmd, hc, hd] using h⟩

/-! ### Runs -/

theorem run_next {s t : State} (n : Nat) (h : step s = .next t) : run (n + 1) s = run n t := by simp [run, h]

theorem run_refused {s : State} {r : Refusal} (n : Nat) (h : step s = .refused r) : run (n + 1) s = .refused r := by
  simp [run, h]

/-- The runs of the statements are the host's runs of the machine. -/
theorem core_run_eq (n : Nat) : ∀ s : State, Sys2Proof.core.run n s = run n s := by
  induction n with
  | zero => intro s; rfl
  | succ n ih =>
    intro s
    cases h : step s with
    | next t =>
      have h' : Sys2Proof.core.step s = .next t := h
      have e : Sys2Proof.core.run (n + 1) s = Sys2Proof.core.run n t := by simp only [Host.Core.run]; rw [h']
      exact e.trans ((ih t).trans (run_next n h).symm)
    | fault f => cases f
    | refused r =>
      have h' : Sys2Proof.core.step s = .refused r := h
      have e : Sys2Proof.core.run (n + 1) s = .refused r := by simp only [Host.Core.run]; rw [h']
      exact e.trans (run_refused n h).symm

end Sys2Proof.Machine
end

