-- ==== Sys2Proof/Laws/PerInstr.lean ====
section
/-! SUPPORT. The statement about every command as syntax, one lemma per constructor: the encoded word of a well-formed command
is a `W_TS + 4`-bit number (30_encoding.md R50, R56). -/

namespace Sys2Proof.Laws.EncodeFits

/-- The encoded word has `W_TS + 4` bits. -/
def Statement (i : Instr) : Prop := ∀ wTs, i.wellFormed wTs = true → encode i < 2 ^ (wTs + 4)

theorem cmdWord_lt {wTs ts : Nat} (arg : Bool) {op : Nat} (h : op < 8) (hts : ts < 2 ^ wTs) :
    cmdWord ts arg op < 2 ^ (wTs + 4) := by
  have hb : arg.toNat ≤ 1 := Bool.toNat_le arg
  have hp : 2 ^ (wTs + 4) = 16 * 2 ^ wTs := by rw [Nat.pow_add]; omega
  rw [cmdWord, hp]
  omega

theorem nop : Statement .nop := fun w _ => cmdWord_lt false (by decide) (Nat.two_pow_pos w)

theorem edgeR (ts : Nat) : Statement (.edgeR ts) := fun _ h =>
  cmdWord_lt true (by decide) (by simpa [Instr.wellFormed, tsFits] using h)

theorem edgeF (ts : Nat) : Statement (.edgeF ts) := fun _ h =>
  cmdWord_lt false (by decide) (by simpa [Instr.wellFormed, tsFits] using h)

theorem reset : Statement .reset := fun w _ => cmdWord_lt false (by decide) (Nat.two_pow_pos w)

theorem isReady : Statement .isReady := fun w _ => cmdWord_lt false (by decide) (Nat.two_pow_pos w)

theorem valueBits (zFill : Bool) : Statement (.valueBits zFill) := fun w _ =>
  cmdWord_lt zFill (by decide) (Nat.two_pow_pos w)

theorem zMask (zIsOne : Bool) : Statement (.zMask zIsOne) := fun w _ =>
  cmdWord_lt zIsOne (by decide) (Nat.two_pow_pos w)

end Sys2Proof.Laws.EncodeFits
end

