-- ==== Sys2Proof/Tests/Slice0.lean ====
section
/-! SUPPORT. Tests: words and results transcribed from the spec (each comment names the vector or rule), refusals of ill-formed
terms, and for every obligation with hypotheses a witness that meets them. -/

open Sys2Proof Sys2Proof.Machine

namespace Sys2Proof.Tests

/-! ## Helpers -/

/-- The outcome is a next state with property `p`. -/
def nextWith (o : Host.Outcome State Fault Refusal) (p : State → Bool) : Bool :=
  match o with
  | .next t => p t
  | .fault _ => false
  | .refused _ => false

/-- The outcome is the refusal `r`. -/
def refusedAs (o : Host.Outcome State Fault Refusal) (r : Refusal) : Bool :=
  match o with
  | .next _ => false
  | .fault _ => false
  | .refused q => decide (q = r)

theorem exists_of_nextWith {o : Host.Outcome State Fault Refusal} {p : State → Bool} (h : nextWith o p = true) :
    ∃ t, o = .next t ∧ p t = true := by
  cases o with
  | next t => exact ⟨t, rfl, h⟩
  | fault f => cases f
  | refused r => simp [nextWith] at h

/-- A state of the example configuration with a pilot-length low just measured, in `Idle` (V-EX1, row 1). -/
def afterPilotLow : State := { State.reset with lastEventTime := 4000, periodLow := 4000 }

/-- `Reading` at time 5690 with `bit_index = k`, a low half-period just measured at 5690 + low, and the given pending half. -/
def readingAt (k : BitVec 5) (half pend : Bool) (low : Nat) : State :=
  { State.reset with
    state := .reading, lastEventTime := 5690 + low, periodLow := BitVec.ofNat 16 low, bitIndex := k,
    halfSymbolPending := half, pendingSymbol := pend, rsp := 0xFFFF }

/-- The state SD of 95_test_vectors.md, with a response left over. -/
def frameDone : State :=
  { State.reset with
    state := .done, lastEventTime := 19730, periodLow := 130, periodHigh := 260, bitIndex := 20,
    valueBuf := 0x02A734, zBuf := 0x000840, rsp := 0x5555 }

/-- One step with the word `w` on the port. -/
def stepOn (w : Nat) (s : State) : Host.Outcome State Fault Refusal := step (s.withFetchWord 36 w)

/-! ## Decoding: words of V-E1, V-E2, V-E3 -/

theorem test_decode_nop : decodeTableWord 40 0xFFFFFFFF8 = some .nop := by decide
theorem test_decode_edgeR : decodeTableWord 40 0x00000FA09 = some (.edgeR 4000) := by decide
theorem test_decode_edgeF : decodeTableWord 40 0x000010221 = some (.edgeF 4130) := by decide
theorem test_decode_reset : decodeTableWord 40 0x12345678A = some .reset := by decide
theorem test_decode_isReady : decodeTableWord 40 0x00000300B = some .isReady := by decide
theorem test_decode_valueBits : decodeTableWord 40 0x00000000C = some (.valueBits true) := by decide
theorem test_decode_zMask : decodeTableWord 40 0x000000005 = some (.zMask false) := by decide
theorem test_decode_reserved : decodeTableWord 40 0x00000000E = none ∧ decodeTableWord 40 0x123456787 = none := by decide

/-- R50: op 001 in bits 2..0, arg in bit 3, ts from bit 4: bits written out for `EDGE.F 5` and `EDGE.R 6`. -/
theorem test_decode_bits : decode 32 0b1010001 = .ok (.edgeF 5) ∧ decode 32 0b1101001 = .ok (.edgeR 6) := ⟨rfl, rfl⟩

/-- V-E1: the encoder. -/
theorem test_encode : encode (.edgeR 4000) = 0x00000FA09 ∧ encode (.edgeF 4294967295) = 0xFFFFFFFF1 ∧
    encode (.valueBits true) = 0x00000000C ∧ encode (.zMask true) = 0x00000000D ∧ encode .reset = 2 ∧
    encode .isReady = 3 ∧ encode .nop = 0 := by decide

/-! ## Ill-formed terms are refused -/

theorem test_wellFormed_edgeR : (Instr.edgeR 4294967296).wellFormed 32 = false ∧ (Instr.edgeR 4294967295).wellFormed 32 = true := by
  decide
theorem test_wellFormed_edgeF : (Instr.edgeF 65536).wellFormed 16 = false ∧ (Instr.edgeF 65535).wellFormed 16 = true := by decide

/-- The refused rows of V-C1. -/
theorem test_cfg_refused :
    [{ exampleCfg with shortMax := 181 }, { exampleCfg with pilotMin := 337 },
     { exampleCfg with shortMin := 169, shortMax := 91 }, { exampleCfg with shortMin := 130, shortMax := 130 },
     { exampleCfg with pilotMin := 65536 }, { exampleCfg with noiseFloor := 4294967296 },
     { exampleCfg with wTs := 0 }].all (fun c => !cfgValid c && refusedAs (constructDirect c) .configInvalid) = true := by
  decide

/-- The valid rows of V-C1. -/
theorem test_cfg_valid :
    [exampleCfg, ⟨32, 0, 1, 2, 3, 4, 0⟩, { exampleCfg with pilotMin := 65535 }, { exampleCfg with noiseFloor := 4294967295 },
     { exampleCfg with noiseFloor := 500 }].all cfgValid = true := by decide

/-- One state for each clause of R20 and R32 that the legality check looks at. -/
theorem test_illegal_states :
    [{ State.reset with lastEventTime := 4294967296 }, { State.reset with bitIndex := 1 },
     { State.reset with halfSymbolPending := true }, { readingAt 20 false false 130 with rsp := 0 },
     { frameDone with bitIndex := 25 }, { frameDone with halfSymbolPending := true },
     { State.reset with valueBuf := 0x800000 }, { State.reset with zBuf := 0x000002 },
     { State.reset with valueBuf := 4, zBuf := 4 }].all (fun s => refusedAs (exec .nop s) .illFormedState) = true := by decide

theorem test_inputs_outside_domain :
    [(⟨0, 3/10, 1, 50⟩ : ConstructInputs), ⟨85, 1, 1, 50⟩, ⟨85, 3/10, 0, 50⟩, ⟨85, 3/10, 1, -1⟩].all
      (fun x => refusedAs (construct 32 x) .configInvalid) = true := by decide +kernel

/-! ## Construction: the rows of R78 -/

theorem test_derive_fosc85 : deriveCfg 32 ⟨85, 3/10, 1, 50⟩ = ⟨32, 272, 504, 544, 1009, 9783, 50⟩ := by decide +kernel
theorem test_derive_fosc85_tick4 : deriveCfg 32 ⟨85, toleranceOfPercent 30, 4, 50⟩ = ⟨32, 68, 126, 136, 252, 2445, 13⟩ := by decide +kernel
theorem test_derive_clamped : deriveCfg 32 ⟨1, 3/10, 1, 0⟩ = ⟨32, 23100, 42900, 46200, 65535, 65535, 0⟩ ∧
    refusedAs (construct 32 ⟨1, 3/10, 1, 0⟩) .configInvalid = true := by decide +kernel
theorem test_derive_third : deriveCfg 32 ⟨110, 1/3, 1, 0⟩ = ⟨32, 200, 400, 400, 800, 7200, 0⟩ ∧
    refusedAs (construct 32 ⟨100, 0, 1, 0⟩) .configInvalid = true := by decide +kernel

/-- The point of log 13: with fosc 10 kHz only `pilot_min` clamps (83160 to 65535), and R74's "valid iff" holds. -/
theorem test_derive_pilot_clamped : deriveCfg 32 ⟨10, 3/10, 1, 0⟩ = ⟨32, 2310, 4290, 4620, 8580, 65535, 0⟩ ∧
    cfgValid (deriveCfg 32 ⟨10, 3/10, 1, 0⟩) = true := by decide +kernel

/-! ## One step of each command -/

/-- V-D2. -/
theorem test_nop : nextWith (stepOn 0x000000000 frameDone) (· == { frameDone with rsp := 0 }) = true := by decide
/-- V-EX1 row 83, and IS_READY in `Reading`. -/
theorem test_isReady : nextWith (stepOn 0x000000003 frameDone) (·.rsp == 1) = true ∧
    nextWith (stepOn 0x000000003 (readingAt 2 false false 130)) (·.rsp == 0) = true := by decide
/-- V-EX1 rows 84 and 85. -/
theorem test_valueBits : nextWith (stepOn 0x000000004 frameDone) (·.rsp == 0xA9CD) = true ∧
    nextWith (stepOn 0x00000000C frameDone) (·.rsp == 0xABDD) = true := by decide
/-- V-EX1 rows 86 and 87. -/
theorem test_zMask : nextWith (stepOn 0x00000000D frameDone) (·.rsp == 0x0210) = true ∧
    nextWith (stepOn 0x000000005 frameDone) (·.rsp == 0xFDEF) = true := by decide
/-- V-X1 row 1. -/
theorem test_reset : nextWith (stepOn 0x000000002 frameDone) (· == State.reset) = true := by decide
/-- V-EX1 row 1, and V-S1: 65536 ticks saturate. -/
theorem test_edgeR : nextWith (stepOn 0x00000FA09 State.reset) (· == afterPilotLow) = true ∧
    nextWith (exec (.edgeR 65536) State.reset) (·.periodLow == 65535) = true := by decide
/-- V-W1: a pilot across the wrap; V-N3: one tick below the noise floor. -/
theorem test_edgeF : nextWith (exec (.edgeF 30) { afterPilotLow with lastEventTime := 4294967196, periodLow := 65535 })
      (fun t => t.state == .reading && t.periodHigh == 130) = true ∧
    nextWith (exec (.edgeF 4049) afterPilotLow) (· == { afterPilotLow with rsp := 0 }) = true := by decide
/-- V-B3: a floating payload bit at position 2; V-A5: the pair (0, 1) in the payload. -/
theorem test_edgeF_payload : nextWith (exec (.edgeF 6080) (readingAt 2 true true 130))
      (fun t => t.zBuf == 4 && t.valueBuf == 0 && t.bitIndex == 3) = true ∧
    nextWith (exec (.edgeF 6080) (readingAt 2 true false 260)) (fun t => t.state == .idle && t.bitIndex == 0) = true := by decide

/-- The text forms of R56 and R57. -/
theorem test_text : instrText (.valueBits true) = "VALUE_BITS 1" ∧ Asm.text (.readFrame false true) = "READ_FRAME 0, 1" := by
  decide

/-- The words that the host places where a step takes its next command. -/
theorem test_withFetchWord : (State.reset.withFetchWord 40 0x00000FA09).cmds = [0x00000FA09] := by decide

/-! ## Witnesses: the hypotheses of the obligations can be met -/

theorem witness_DecodeOfEncodeIsIdentity : (Instr.edgeR 4294967295).wellFormed 32 = true ∧ isEdge (.zMask true) = false ∧
    (Instr.zMask true).wellFormed 32 = true := by decide
theorem witness_OpcodeSelectsCommand : 0x8 % 8 = 0 ∧ (0x9 % 8 = 1 ∧ 0x9 / 8 % 2 = 1) ∧ (0x1 % 8 = 1 ∧ 0x1 / 8 % 2 = 0) ∧
    0x2 % 8 = 2 ∧ 0x3 % 8 = 3 ∧ 0x4 % 8 = 4 ∧ 0x5 % 8 = 5 ∧ 0x6 % 8 = 6 ∧ 0xF % 8 = 7 := by decide
theorem witness_IgnoredBitsHaveNoEffect : 0xABCDEF01C % 8 = 0x00000000C % 8 ∧ 0xABCDEF01C / 8 % 2 = 0x00000000C / 8 % 2 ∧
    0xABCDEF01C ≠ 0x00000000C ∧ 0x100000FA09 % 8 = 0x00000FA09 % 8 ∧ 0x100000FA09 / 8 % 2 = 0x00000FA09 / 8 % 2 ∧
    0x100000FA09 / 16 % 2 ^ 32 = 0x00000FA09 / 16 % 2 ^ 32 := by decide
theorem witness_ReservedOpcodeRefused : (State.reset.withFetchWord 36 0x123456787).cmds = 0x123456787 :: [] ∧ 0x123456787 % 8 = 7 ∧
    0x00000000E % 8 = 6 := by decide
theorem witness_StepRunsDecodedCommand : (State.reset.withFetchWord 36 0x00000FA09).cmds = 0x00000FA09 :: [] ∧
    decode State.reset.cfg.wTs 0x00000FA09 = .ok (.edgeR 4000) := ⟨rfl, rfl⟩
theorem witness_StepWithNothingPresented : State.reset.cmds = [] := rfl
theorem witness_PresentedStreamIsLeftFold : ∀ i ∈ [Instr.edgeR 4000, .edgeF 4294967295, .reset, .zMask true],
    i.wellFormed State.reset.cfg.wTs = true := by decide
theorem witness_RefusalsOfAllCommands : cfgValid { exampleCfg with pilotMin := 65536 } = false ∧ cfgValid frameDone.cfg = true ∧
    legal { frameDone with bitIndex := 25 } = false := by decide
theorem witness_EveryPresentedCommandCompletes : good (frameDone.withFetchWord 36 0x000000005) = true ∧
    (frameDone.withFetchWord 36 0x000000005).cmds = 0x000000005 :: [] ∧ 0x000000005 % 8 < 6 := by decide

/-- The states used below are good ones: the hypothesis of the results of NOP, IS_READY, VALUE_BITS, Z_MASK and RESET, and of
ReadsAgreeOnFloatingBits, ResetIsIdempotent, EveryPositionIsTriState. -/
theorem witness_good_states : good State.reset = true ∧ good afterPilotLow = true ∧ good frameDone = true ∧
    good (readingAt 19 true true 260) = true ∧ good (readingAt 0 false false 130) = true := by decide
theorem witness_encodings_of_results : 0x8 % 8 = 0 ∧ 0x00000300B % 8 = 3 ∧ 0x12345678A % 8 = 2 ∧ 0x00000FA09 % 16 = 9 := by decide

theorem witness_EdgeInDoneWritesNothing : good frameDone = true ∧ frameDone.state = .done := by decide
theorem witness_NoiseEdgeIsDiscarded : good afterPilotLow = true ∧ 49 < 2 ^ afterPilotLow.cfg.wTs ∧
    (afterPilotLow.lastEventTime + 49) % 2 ^ afterPilotLow.cfg.wTs = 4049 ∧ 49 < afterPilotLow.cfg.noiseFloor := by decide
theorem witness_AcceptedEdgeStampsAndSaturates : good afterPilotLow = true ∧ afterPilotLow.state ≠ .done ∧
    50 < 2 ^ afterPilotLow.cfg.wTs ∧ (afterPilotLow.lastEventTime + 50) % 2 ^ afterPilotLow.cfg.wTs = 4050 ∧
    afterPilotLow.cfg.noiseFloor ≤ 50 := by decide
theorem witness_RisingEdgeResult_accepted : good State.reset = true ∧ 65536 < 2 ^ State.reset.cfg.wTs ∧
    (State.reset.lastEventTime + 65536) % 2 ^ State.reset.cfg.wTs = 65536 ∧ State.reset.state ≠ .done ∧
    State.reset.cfg.noiseFloor ≤ 65536 := by decide
theorem witness_RisingEdgeResult_turned_away : (good frameDone = true ∧ 4294967295 < 2 ^ frameDone.cfg.wTs ∧
    (frameDone.lastEventTime + 4294967295) % 2 ^ frameDone.cfg.wTs = 19729 ∧ frameDone.state = .done) ∧
    (49 < 2 ^ State.reset.cfg.wTs ∧ (State.reset.lastEventTime + 49) % 2 ^ State.reset.cfg.wTs = 49 ∧
    49 < State.reset.cfg.noiseFloor) := by decide

/-- The boundary values of V-P1: high 91 and 169 are short, 90 and 170 are not. -/
theorem witness_PilotInIdleStartsFrame : afterPilotLow.state = .idle ∧ Accepted 4091 afterPilotLow ∧ Accepted 4169 afterPilotLow ∧
    afterPilotLow.cfg.pilotMin < afterPilotLow.periodLow.toNat ∧ inShort afterPilotLow.cfg (measured 4091 afterPilotLow) = true ∧
    inShort afterPilotLow.cfg (measured 4169 afterPilotLow) = true := by decide
theorem witness_OtherFallingEdgeStaysIdle : afterPilotLow.state = .idle ∧ Accepted 4170 afterPilotLow ∧
    ¬ (afterPilotLow.cfg.pilotMin < afterPilotLow.periodLow.toNat ∧
      inShort afterPilotLow.cfg (measured 4170 afterPilotLow) = true) := by decide
theorem witness_FirstSymbolIsCaptured : good (readingAt 0 false false 130) = true ∧ (readingAt 0 false false 130).state = .reading ∧
    Accepted 6080 (readingAt 0 false false 130) ∧ CompletesSymbol 6080 false (readingAt 0 false false 130) ∧
    (readingAt 0 false false 130).halfSymbolPending = false ∧
    CompletesSymbol 6080 true (readingAt 0 false false 260) := by decide
theorem witness_SyncPairAdvancesOrAborts : good (readingAt 1 true false 260) = true ∧
    Accepted 6080 (readingAt 1 true false 260) ∧ CompletesSymbol 6080 true (readingAt 1 true false 260) ∧
    (readingAt 1 true false 260).bitIndex.toNat < 2 ∧ (readingAt 1 true false 260).pendingSymbol = false ∧
    good (readingAt 1 true true 260) = true ∧ Accepted 6080 (readingAt 1 true true 260) ∧
    CompletesSymbol 6080 true (readingAt 1 true true 260) ∧ ¬ ((readingAt 1 true true 260).pendingSymbol = false) := by decide
theorem witness_PayloadBitIsStored : (good (readingAt 2 true true 130) = true ∧ Accepted 6080 (readingAt 2 true true 130) ∧
      CompletesSymbol 6080 false (readingAt 2 true true 130) ∧ 2 ≤ (readingAt 2 true true 130).bitIndex.toNat ∧
      ¬ ((readingAt 2 true true 130).pendingSymbol = false)) ∧
    (good (readingAt 19 true true 260) = true ∧ Accepted 6080 (readingAt 19 true true 260) ∧
      CompletesSymbol 6080 true (readingAt 19 true true 260) ∧ 2 ≤ (readingAt 19 true true 260).bitIndex.toNat ∧
      ¬ ((readingAt 19 true true 260).pendingSymbol = false)) := by decide
theorem witness_PayloadZeroOneAborts : good (readingAt 19 true false 260) = true ∧ Accepted 6080 (readingAt 19 true false 260) ∧
    CompletesSymbol 6080 true (readingAt 19 true false 260) ∧ 2 ≤ (readingAt 19 true false 260).bitIndex.toNat ∧
    (readingAt 19 true false 260).pendingSymbol = false ∧ (readingAt 19 true false 260).halfSymbolPending = true := by decide
/-- V-K1: (short, short) and a pilot low exactly at `pilot_min` are invalid. -/
theorem witness_InvalidTimingAborts : (good (readingAt 3 false false 130) = true ∧ Accepted 5950 (readingAt 3 false false 130) ∧
      ¬ CompletesSymbol 5950 false (readingAt 3 false false 130) ∧ ¬ CompletesSymbol 5950 true (readingAt 3 false false 130) ∧
      ¬ ((readingAt 3 false false 130).cfg.pilotMin < (readingAt 3 false false 130).periodLow.toNat)) ∧
    (good (readingAt 3 false false 3231) = true ∧ Accepted 9051 (readingAt 3 false false 3231) ∧
      ¬ CompletesSymbol 9051 false (readingAt 3 false false 3231) ∧ ¬ CompletesSymbol 9051 true (readingAt 3 false false 3231) ∧
      ¬ ((readingAt 3 false false 3231).cfg.pilotMin < (readingAt 3 false false 3231).periodLow.toNat)) := by decide
/-- V-K1: a low of `pilot_min + 1`. -/
theorem witness_PilotWhileReadingResyncs : good (readingAt 4 true true 3232) = true ∧ Accepted 9052 (readingAt 4 true true 3232) ∧
    (readingAt 4 true true 3232).cfg.pilotMin < (readingAt 4 true true 3232).periodLow.toNat ∧
    inShort (readingAt 4 true true 3232).cfg (measured 9052 (readingAt 4 true true 3232)) = true ∧
    (readingAt 4 true true 3232).state = .reading := by decide
theorem witness_WindowsAreDisjoint : cfgValid exampleCfg = true ∧ inShort exampleCfg 169 = true ∧ inLong exampleCfg 181 = true ∧
    inLong exampleCfg 337 = true ∧ isPilot exampleCfg 3232 = true := by decide
theorem witness_ConstructionAnswersInitialOrRefuses : cfgValid exampleCfg = true ∧
    cfgValid { exampleCfg with pilotMin := 65536 } = false ∧ inputsInDomain ⟨85, 3/10, 1, 50⟩ = true ∧
    inputsInDomain ⟨85, 1, 1, 50⟩ = false := by decide +kernel
theorem witness_IntegerThresholdsAreExact : inputsInDomain ⟨85, 3/10, 1, 50⟩ = true ∧ 65535 ≤ 65535 := by decide +kernel
theorem witness_DegenerateTolerances : (⟨100, 0, 1, 0⟩ : ConstructInputs).tolerance = 0 ∧ inputsInDomain ⟨110, 1/3, 1, 0⟩ = true := by
  decide +kernel
theorem witness_EveryStepKeepsGood : good (afterPilotLow.withFetchWord 36 0x000010221) = true ∧
    nextWith (step (afterPilotLow.withFetchWord 36 0x000010221)) (·.state == .reading) = true := by decide
theorem witness_FrameIsStableInDone : good frameDone = true ∧ frameDone.state = .done ∧
    (∀ i ∈ [Instr.edgeR 30000, .edgeF 30130, .valueBits true, .nop], i.wellFormed frameDone.cfg.wTs = true ∧ i ≠ .reset) ∧
    isRead (.valueBits false) = true := by decide
theorem witness_OnlyTheseTransitions : nextWith (exec .reset frameDone) (fun t => decide (t.state ≠ frameDone.state)) = true ∧
    nextWith (exec (.edgeF 4130) afterPilotLow) (fun t => t.state == .reading) = true ∧
    nextWith (exec (.edgeF 6080) (readingAt 19 true true 260)) (fun t => t.state == .done) = true ∧
    nextWith (exec (.edgeF 5950) (readingAt 3 false false 130)) (fun t => t.state == .idle) = true := by decide
/-- One command for each kind of field: EDGE.R a period low and the time, EDGE.F a period high, a first half, a stored bit; and
RESET. -/
theorem witness_OnlyTheseCommandsWriteAField : nextWith (exec .reset frameDone) (fun t => t.valueBuf == 0) = true ∧
    nextWith (exec (.edgeR 4000) State.reset) (fun t => t.periodLow == 4000 && t.lastEventTime == 4000) = true ∧
    nextWith (exec (.edgeF 6080) (readingAt 0 false false 260)) (fun t => t.pendingSymbol && t.periodHigh == 130) = true ∧
    nextWith (exec (.edgeF 6080) (readingAt 19 true true 260)) (fun t => bufRead t.valueBuf 19) = true ∧
    nextWith (exec (.edgeF 6080) (readingAt 2 true true 130)) (fun t => bufRead t.zBuf 2) = true := by decide
theorem witness_ResponsesSeeOnlyReadyAndBuffers : good State.reset = true ∧ good (readingAt 1 false true 130) = true ∧
    State.reset.valueBuf = (readingAt 1 false true 130).valueBuf ∧ State.reset.zBuf = (readingAt 1 false true 130).zBuf ∧
    (State.reset.state = .done ↔ (readingAt 1 false true 130).state = .done) := by decide
theorem witness_PackedViewBitOrder : 23 < 24 := by decide
/-- V-N1: the glitch pair. -/
theorem witness_GlitchBurstHasNoEffect : good afterPilotLow = true ∧ 4030 < 2 ^ afterPilotLow.cfg.wTs ∧
    delta afterPilotLow.cfg.wTs 4030 afterPilotLow.lastEventTime < afterPilotLow.cfg.noiseFloor ∧
    4040 < 2 ^ afterPilotLow.cfg.wTs ∧
    delta afterPilotLow.cfg.wTs 4040 afterPilotLow.lastEventTime < afterPilotLow.cfg.noiseFloor := by decide
theorem witness_FirstEdgeAfterResetMeasuresFromZero : good frameDone = true ∧ 50 < 2 ^ frameDone.cfg.wTs ∧
    frameDone.cfg.noiseFloor ≤ 50 := by decide
theorem witness_SaturatedLowIsPilot : good (readingAt 2 true false 130) = true ∧ (readingAt 2 true false 130).state ≠ .done ∧
    exampleCfg.pilotMin < 65535 ∧ MeasuredAsIs exampleCfg 65535 ∧ MeasuredAsIs exampleCfg 130 ∧ inShort exampleCfg 130 = true := by decide
theorem witness_FrameRoundTrip : good State.reset = true ∧ State.reset.state ≠ .done ∧
    PulseIsPilot State.reset.cfg (4000, 130) ∧
    List.Forall₂ (PulseCarries State.reset.cfg) (frameSymbols 0xABCD 0x0210 .zero .zero)
      ((frameSymbols 0xABCD 0x0210 .zero .zero).map (symbolPulse 130 260)) := by decide
theorem witness_ConfigurationNeverChanges : nextWith (step (State.reset.withFetchWord 36 2)) (fun _ => true) = true := by decide
theorem witness_TimeShiftChangesNothing : good afterPilotLow = true ∧
    (∀ i ∈ [Instr.edgeF 4130, .edgeR 4260], i.wellFormed afterPilotLow.cfg.wTs = true ∧ i ≠ .reset) ∧
    nextWith (deliver [.edgeF 4130, .edgeR 4260] afterPilotLow) (fun t => t.state == .reading) = true := by decide

/-- The command stream of V-EX1. -/
def exampleFrame : List Instr :=
  train 32 0 ((4000, 130) :: (frameSymbols 0xABCD 0x0210 .zero .zero).map (symbolPulse 130 260))

/-- The one run of the tests: V-EX1 reaches its end state. It is the witness that a stream reaching `Done` exists. -/
theorem witness_stream_reaching_done :
    nextWith (deliver exampleFrame State.reset) (· == { frameDone with rsp := 0 }) = true := by decide +kernel

theorem witness_DoneNeedsFortyOneFallingEdges : State.reset.state = .idle ∧
    (∀ i ∈ exampleFrame, i.wellFormed State.reset.cfg.wTs = true) ∧
    ∃ t, deliver exampleFrame State.reset = .next t ∧ t.state = .done := by
  refine ⟨rfl, by decide +kernel, ?_⟩
  obtain ⟨t, h, e⟩ := exists_of_nextWith witness_stream_reaching_done
  exact ⟨t, h, by simp [eq_of_beq e, frameDone]⟩

theorem witness_StaleFrameNeverShows : good State.reset = true ∧
    good { State.reset with valueBuf := 0x02A734, zBuf := 0x000840, pendingSymbol := true } = true ∧
    State.reset.state ≠ .done ∧ State.reset.bitIndex = 0 ∧ State.reset.halfSymbolPending = false ∧
    (∀ i ∈ exampleFrame, i.wellFormed State.reset.cfg.wTs = true) ∧
    ∃ t, deliver exampleFrame State.reset = .next t ∧ t.state = .done :=
  ⟨by decide, by decide, by decide, rfl, rfl, witness_DoneNeedsFortyOneFallingEdges.2.1,
    witness_DoneNeedsFortyOneFallingEdges.2.2⟩

end Sys2Proof.Tests
end

section
/-! The family 41_edge_intake.md. First what an edge does in general: turned away it only answers 0, accepted it stamps its time
and hands over its half-period, and classification leaves those writes alone. Then the statements of the family. -/

namespace Sys2Proof.Machine

/-! ### Encoding of EDGE.R -/

/-- The low four bits 1001 are arg 1 and op 001 (R52). -/
theorem decode_edgeR_of_mod (wTs : Nat) {w : Nat} (h : w % 16 = 9) :
    decode wTs w = .ok (.edgeR (w / 16 % 2 ^ wTs)) := by
  have hop : opField w = 1 := by simp only [opField]; omega
  have harg : argField w = true := by simp only [argField, decide_eq_true_eq]; omega
  rw [decode_op1 hop, if_pos harg]
  rfl

/-! ### Acceptance and the two outcomes of the intake -/

section
variable {s : State} {ts d : Nat}

/-- The full-width delta of an edge `d` ticks after the last accepted one, the wrap of the counter included (R82). -/
theorem edgeDelta_eq (hd : d < 2 ^ s.cfg.wTs) (hts : (s.lastEventTime + d) % 2 ^ s.cfg.wTs = ts) :
    edgeDelta ts s = d := by
  rw [← hts]
  exact delta_of_lt hd

theorem measured_eq (hd : d < 2 ^ s.cfg.wTs) (hts : (s.lastEventTime + d) % 2 ^ s.cfg.wTs = ts) :
    measured ts s = min d 65535 := by
  rw [measured, ← edgeDelta, edgeDelta_eq hd hts]

theorem accepted_iff_of_delta (hd : d < 2 ^ s.cfg.wTs) (hts : (s.lastEventTime + d) % 2 ^ s.cfg.wTs = ts) :
    Accepted ts s ↔ s.state ≠ .done ∧ s.cfg.noiseFloor ≤ d := by
  rw [Accepted, ← edgeDelta, edgeDelta_eq hd hts]

theorem intake_of_accepted (f : Period → State → State) (h : Accepted ts s) :
    intake ts f s = f (saturate (edgeDelta ts s)) (stamp ts (respond 0 s)) := by
  rcases intake_cases ts f s with ⟨_, e⟩ | ⟨hn, _⟩
  · exact e
  · exact absurd h hn

theorem intake_of_not_accepted (f : Period → State → State) (h : ¬ Accepted ts s) :
    intake ts f s = respond 0 s := by
  rcases intake_cases ts f s with ⟨ha, _⟩ | ⟨_, e⟩
  · exact absurd ha h
  · exact e

/-- An edge gated by `Done` or rejected as noise only answers 0, whatever its level (R55, R81, R82). -/
theorem exec_edge_of_not_accepted (hg : good s = true) (h : ¬ Accepted ts s) :
    exec (.edgeR ts) s = .next { s with rsp := 0 } ∧ exec (.edgeF ts) s = .next { s with rsp := 0 } := by
  rw [exec_edgeR, exec_edgeF, perform_of_good hg, perform_of_good hg, intake_of_not_accepted _ h,
    intake_of_not_accepted _ h]
  exact ⟨rfl, rfl⟩

/-- An accepted rising edge ends with its low half-period recorded (R85). -/
theorem exec_edgeR_of_accepted (hg : good s = true) (h : Accepted ts s) :
    exec (.edgeR ts) s =
      .next { s with lastEventTime := ts, periodLow := BitVec.ofNat 16 (measured ts s), rsp := 0 } := by
  rw [exec_edgeR, perform_of_good hg, intake_of_accepted _ h]
  rfl

/-- An accepted falling edge makes the writes of `fallen` first and classifies the state they give (R86). -/
theorem exec_edgeF_of_accepted (hg : good s = true) (h : Accepted ts s) :
    exec (.edgeF ts) s = .next (classifyFalling (fallen ts s)) := by
  rw [exec_edgeF, perform_of_good hg, intake_of_accepted _ h]
  rfl

end

/-! ### The writes of an accepted falling edge -/

section
variable (ts : Nat) (s : State)

@[simp] theorem fallen_cfg : (fallen ts s).cfg = s.cfg := rfl
@[simp] theorem fallen_state : (fallen ts s).state = s.state := rfl
@[simp] theorem fallen_lastEventTime : (fallen ts s).lastEventTime = ts := rfl
@[simp] theorem fallen_periodLow : (fallen ts s).periodLow = s.periodLow := rfl
@[simp] theorem fallen_bitIndex : (fallen ts s).bitIndex = s.bitIndex := rfl
@[simp] theorem fallen_halfSymbolPending : (fallen ts s).halfSymbolPending = s.halfSymbolPending := rfl
@[simp] theorem fallen_pendingSymbol : (fallen ts s).pendingSymbol = s.pendingSymbol := rfl

/-- The saturated half-period is stored without loss: it fits 16 bits (R84). -/
@[simp] theorem fallen_periodHigh_toNat : (fallen ts s).periodHigh.toNat = measured ts s :=
  saturate_toNat (edgeDelta ts s)

end

/-! ### Classification leaves the writes of the intake alone -/

/-- `t` is `s` but for the frame in progress: the fields that the intake steps and the port own are the same. -/
structure SameIntake (s t : State) : Prop where
  cfg : t.cfg = s.cfg
  lastEventTime : t.lastEventTime = s.lastEventTime
  periodLow : t.periodLow = s.periodLow
  periodHigh : t.periodHigh = s.periodHigh
  rsp : t.rsp = s.rsp
  cmds : t.cmds = s.cmds

theorem SameIntake.refl (s : State) : SameIntake s s := ⟨rfl, rfl, rfl, rfl, rfl, rfl⟩

theorem SameIntake.trans {s t u : State} (h : SameIntake s t) (k : SameIntake t u) : SameIntake s u where
  cfg := k.cfg.trans h.cfg
  lastEventTime := k.lastEventTime.trans h.lastEventTime
  periodLow := k.periodLow.trans h.periodLow
  periodHigh := k.periodHigh.trans h.periodHigh
  rsp := k.rsp.trans h.rsp
  cmds := k.cmds.trans h.cmds

section
variable (s : State)

theorem sameIntake_abort : SameIntake s (abort s) := ⟨rfl, rfl, rfl, rfl, rfl, rfl⟩

theorem sameIntake_clearHalf : SameIntake s (clearHalf s) := ⟨rfl, rfl, rfl, rfl, rfl, rfl⟩

theorem sameIntake_pilotCheck : SameIntake s (pilotCheck s) := by
  rcases pilotCheck_cases s with ⟨_, _, e⟩ | ⟨_, e⟩ <;> rw [e]
  · exact ⟨rfl, rfl, rfl, rfl, rfl, rfl⟩
  · exact .refl s

theorem sameIntake_complete : SameIntake s (complete s) := by
  rcases complete_cases s with ⟨_, e⟩ | ⟨_, e⟩ <;> rw [e]
  · exact ⟨rfl, rfl, rfl, rfl, rfl, rfl⟩
  · exact .refl s

theorem sameIntake_syncBit (a b : Symbol) : SameIntake s (syncBit a b s) := by
  rcases syncBit_cases a b s with ⟨_, _, e⟩ | ⟨_, e⟩ <;> rw [e]
  · exact ⟨rfl, rfl, rfl, rfl, rfl, rfl⟩
  · exact sameIntake_abort s

theorem sameIntake_payloadBit (a b : Symbol) : SameIntake s (payloadBit a b s) := by
  rcases payloadBit_cases a b s with ⟨t, _, e⟩ | ⟨_, _, e⟩ <;> rw [e]
  · have hstored : SameIntake s (advance (store t s)) := ⟨rfl, rfl, rfl, rfl, rfl, rfl⟩
    exact hstored.trans (sameIntake_complete _)
  · exact sameIntake_abort s

theorem sameIntake_pair (b : Symbol) : SameIntake s (pair b s) := by
  rcases pair_cases b s with ⟨_, e⟩ | ⟨_, e⟩ <;> rw [e]
  · exact ⟨rfl, rfl, rfl, rfl, rfl, rfl⟩
  · rcases decodePair_cases s.pendingSymbol b s with ⟨_, e⟩ | ⟨_, e⟩ <;> rw [e]
    · exact (sameIntake_clearHalf s).trans (sameIntake_syncBit _ _ _)
    · exact (sameIntake_clearHalf s).trans (sameIntake_payloadBit _ _ _)

theorem sameIntake_applyClass (c : PulseClass) : SameIntake s (applyClass c s) := by
  cases c with
  | sym b => exact sameIntake_pair s b
  | resync => exact ⟨rfl, rfl, rfl, rfl, rfl, rfl⟩
  | invalid => exact sameIntake_abort s

/-- Whatever a falling edge classifies, it keeps the time and the half-periods that the intake has written (R86). -/
theorem sameIntake_classifyFalling : SameIntake s (classifyFalling s) := by
  rcases classifyFalling_cases s with ⟨_, e⟩ | ⟨_, e⟩ | ⟨_, e⟩ <;> rw [e]
  · exact sameIntake_pilotCheck s
  · exact sameIntake_applyClass s _
  · exact .refl s

end

/-! ### A falling edge that completes a symbol -/

theorem cfgValid_of_good {s : State} (hg : good s = true) : cfgValid s.cfg = true :=
  (Bool.and_eq_true_iff.1 hg).1

/-- The short window ends below the long one (R74). -/
theorem not_inLong_of_inShort {c : Cfg} (hc : cfgValid c = true) {p : Nat} (h : inShort c p = true) :
    ¬ inLong c p = true := by
  obtain ⟨-, -, ⟨-, hgap, -, -⟩, -⟩ := of_decide_eq_true hc
  rw [inShort_iff] at h
  rw [inLong_iff]
  omega

/-- (short, long) is symbol 0: the first case of R89. -/
theorem classify_short_long {c : Cfg} {pl ph : Nat} (hl : inShort c pl = true) (hh : inLong c ph = true) :
    classify c pl ph = .sym false := by
  simp [classify, hl, hh]

/-- (long, short) is symbol 1: the first case of R89 fails, since the windows are disjoint. -/
theorem classify_long_short {c : Cfg} (hc : cfgValid c = true) {pl ph : Nat} (hl : inLong c pl = true)
    (hh : inShort c ph = true) : classify c pl ph = .sym true := by
  have hfirst : ¬ inLong c ph = true := not_inLong_of_inShort hc hh
  simp [classify, hl, hh, hfirst]

theorem classify_fallen {s : State} {ts : Nat} {b : Symbol} (hg : good s = true) (h : CompletesSymbol ts b s) :
    classify s.cfg s.periodLow.toNat (measured ts s) = .sym b := by
  cases b with
  | false => exact classify_short_long h.1 h.2
  | true => exact classify_long_short (cfgValid_of_good hg) h.1 h.2

/-- In `Reading`, an accepted falling edge that completes a symbol is the pairing of that symbol (R86, R89). -/
theorem exec_edgeF_of_symbol {s : State} {ts : Nat} {b : Symbol} (hg : good s = true) (hr : s.state = .reading)
    (ha : Accepted ts s) (hb : CompletesSymbol ts b s) : exec (.edgeF ts) s = .next (pair b (fallen ts s)) := by
  rw [exec_edgeF_of_accepted hg ha]
  rcases classifyFalling_cases (fallen ts s) with ⟨hi, _⟩ | ⟨_, e⟩ | ⟨hd, _⟩
  · simp [hr] at hi
  · rw [e, fallen_cfg, fallen_periodLow, fallen_periodHigh_toNat, classify_fallen hg hb]
    rfl
  · simp [hr] at hd

/-- With no half pending, pairing captures the symbol (R92). -/
theorem pair_of_no_half {s : State} (b : Symbol) (h : s.halfSymbolPending = false) : pair b s = capture b s := by
  rcases pair_cases b s with ⟨_, e⟩ | ⟨h', _⟩
  · exact e
  · simp [h] at h'

/-- With a half pending in the sync field, pairing decodes a sync bit (R93). -/
theorem pair_of_sync {s : State} (b : Symbol) (h : s.halfSymbolPending = true) (hk : s.bitIndex.toNat < 2) :
    pair b s = syncBit s.pendingSymbol b (clearHalf s) := by
  rcases pair_cases b s with ⟨h', _⟩ | ⟨_, e⟩
  · simp [h] at h'
  · rcases decodePair_cases s.pendingSymbol b s with ⟨_, e'⟩ | ⟨hk', _⟩
    · exact e.trans e'
    · omega

/-! ### The statements -/

/-- Settles O18: in `Done` no edge is accepted. -/
theorem edgeInDoneWritesNothing : Obligations.EdgeInDoneWritesNothing := by
  intro s ts hg hdone
  exact exec_edge_of_not_accepted hg fun ha => ha.1 hdone

/-- Settles O20: the writes of the intake for EDGE.R, and for EDGE.F that classification keeps them. -/
theorem acceptedEdgeStampsAndSaturates : Obligations.AcceptedEdgeStampsAndSaturates := by
  intro s ts d hg hdone hd hts hn
  have ha : Accepted ts s := (accepted_iff_of_delta hd hts).2 ⟨hdone, hn⟩
  have hm : measured ts s = min d 65535 := measured_eq hd hts
  refine ⟨⟨_, exec_edgeR_of_accepted hg ha, rfl, ?_⟩, ⟨_, exec_edgeF_of_accepted hg ha, ?_, ?_⟩⟩
  · exact (saturate_toNat (edgeDelta ts s)).trans hm
  · rw [(sameIntake_classifyFalling _).lastEventTime, fallen_lastEventTime]
  · rw [(sameIntake_classifyFalling _).periodHigh, fallen_periodHigh_toNat, hm]

/-- Settles O21: the two outcomes of the intake, with acceptance read off the delta `d`. -/
theorem risingEdgeResult : Obligations.RisingEdgeResult := by
  refine ⟨fun s ts d hg hd hts => ⟨fun hdone hn => ?_, fun hturned => ?_⟩, fun wTs w => decode_edgeR_of_mod wTs⟩
  · rw [exec_edgeR_of_accepted hg ((accepted_iff_of_delta hd hts).2 ⟨hdone, hn⟩), measured_eq hd hts]
  · have hna : ¬ Accepted ts s := by
      rw [accepted_iff_of_delta hd hts]
      rintro ⟨hdone, hn⟩
      exact hturned.elim hdone (Nat.not_lt.2 hn)
    exact (exec_edge_of_not_accepted hg hna).1

/-- Settles O24: the edge is a pairing of `b`, and with no half pending pairing is capture. -/
theorem firstSymbolIsCaptured : Obligations.FirstSymbolIsCaptured := by
  intro s ts b hg hr ha hb hhalf
  rw [exec_edgeF_of_symbol hg hr ha hb, pair_of_no_half b (by simpa using hhalf)]
  rfl

/-- Settles O25: the edge is a pairing of `b` that decodes a sync bit, which advances or aborts. -/
theorem syncPairAdvancesOrAborts : Obligations.SyncPairAdvancesOrAborts := by
  intro s ts b hg hr ha hb hhalf hk
  rw [exec_edgeF_of_symbol hg hr ha hb, pair_of_sync b (by simpa using hhalf) (by simpa using hk),
    fallen_pendingSymbol]
  rcases syncBit_cases s.pendingSymbol b (clearHalf (fallen ts s)) with ⟨hp, hb', e⟩ | ⟨hne, e⟩ <;> rw [e]
  · exact ⟨fun _ => rfl, fun hn => absurd ⟨hp, hb'⟩ hn⟩
  · exact ⟨fun h => absurd h hne, fun _ => rfl⟩

end Sys2Proof.Machine
end

section
/-! The result accessors (42_result_access.md). -/

namespace Sys2Proof.Machine

/-- R110: the 16-bit readiness word, read off the control state. -/
theorem readyRsp_eq (s : State) : readyRsp s = if s.state = .done then 1 else 0 := by
  cases h : s.state <;> simp [readyRsp, ready, h]

/-- Settles O12: IS_READY only responds, with the readiness word, and its opcode alone decodes to it. -/
theorem isReadyResult : Obligations.IsReadyResult := by
  refine ⟨fun s hg => ?_, fun wTs w hop => decode_op3 hop⟩
  calc exec .isReady s
      = .next (respond (readyRsp s) s) := by rw [exec_isReady, perform_of_good hg]
    _ = .next { s with rsp := if s.state = .done then 1 else 0 } := by rw [readyRsp_eq]; rfl

end Sys2Proof.Machine
end

section
/-! Decoding, encoding and the command port (30_encoding.md, 20_memory.md section 3). -/

namespace Sys2Proof

/-! ### The decoder reads three fields and nothing else -/

theorem decode_reserved {wTs w : Nat} (h : w % 8 = 6 ∨ w % 8 = 7) : decode wTs w = .error .reservedOpcode := by
  rcases h with h | h <;> simp [decode, opField, h]

theorem decode_edgeF_of_fields {wTs w : Nat} (hop : w % 8 = 1) (harg : w / 8 % 2 = 0) :
    decode wTs w = .ok (.edgeF (w / 16 % 2 ^ wTs)) := by
  have h : argField w = false := by simp [argField, harg]
  rw [decode_op1 hop, h]
  rfl

/-- An opcode below 6 is a command's (R52). -/
theorem exists_decode_of_lt {wTs w : Nat} (h : w % 8 < 6) : ∃ i, decode wTs w = .ok i := by
  have hcases : w % 8 = 0 ∨ w % 8 = 1 ∨ w % 8 = 2 ∨ w % 8 = 3 ∨ w % 8 = 4 ∨ w % 8 = 5 := by omega
  rcases hcases with hop | hop | hop | hop | hop | hop
  · exact ⟨_, decode_op0 hop⟩
  · cases harg : argField w
    · exact ⟨.edgeF (tsField wTs w), by rw [decode_op1 hop, harg]; rfl⟩
    · exact ⟨.edgeR (tsField wTs w), by rw [decode_op1 hop, harg]; rfl⟩
  · exact ⟨_, decode_op2 hop⟩
  · exact ⟨_, decode_op3 hop⟩
  · exact ⟨_, decode_op4 hop⟩
  · exact ⟨_, decode_op5 hop⟩

/-- The level bit is read with the opcodes 1, 4 and 5 only, and the timestamp with opcode 1 only (R53). -/
theorem decode_congr {wTs v w : Nat} (hop : v % 8 = w % 8)
    (harg : v % 8 = 1 ∨ v % 8 = 4 ∨ v % 8 = 5 → v / 8 % 2 = w / 8 % 2)
    (hts : v % 8 = 1 → v / 16 % 2 ^ wTs = w / 16 % 2 ^ wTs) : decode wTs v = decode wTs w := by
  have hargField (h : v % 8 = 1 ∨ v % 8 = 4 ∨ v % 8 = 5) : argField v = argField w := by
    rw [argField, argField, harg h]
  have hlt : v % 8 < 8 := Nat.mod_lt _ (by decide)
  have hcases : v % 8 = 0 ∨ v % 8 = 1 ∨ v % 8 = 2 ∨ v % 8 = 3 ∨ v % 8 = 4 ∨ v % 8 = 5 ∨ v % 8 = 6 ∨ v % 8 = 7 := by
    omega
  rcases hcases with h | h | h | h | h | h | h
  · rw [decode_op0 h, decode_op0 (hop.symm.trans h)]
  · rw [decode_op1 h, decode_op1 (hop.symm.trans h), hargField (.inl h), tsField, tsField, hts h]
  · rw [decode_op2 h, decode_op2 (hop.symm.trans h)]
  · rw [decode_op3 h, decode_op3 (hop.symm.trans h)]
  · rw [decode_op4 h, decode_op4 (hop.symm.trans h), hargField (.inr (.inl h))]
  · rw [decode_op5 h, decode_op5 (hop.symm.trans h), hargField (.inr (.inr h))]
  · rw [decode_reserved h, decode_reserved (hop ▸ h)]

/-! ### Decoding an encoded command -/

theorem tsFits_iff {wTs ts : Nat} : tsFits wTs ts = true ↔ ts < 2 ^ wTs := decide_eq_true_iff

/-- Decoding inverts encoding on the commands whose timestamp fits (R52, R56). -/
theorem decode_encode {wTs : Nat} {i : Instr} (h : i.wellFormed wTs = true) : decode wTs (encode i) = .ok i := by
  cases i with
  | nop => exact decode_op0 (opField_cmdWord _ _ (by decide))
  | edgeR ts =>
    rw [encode, decode_op1 (opField_cmdWord _ _ (by decide)), argField_cmdWord _ _ (by decide),
      tsField_cmdWord _ (by decide) (tsFits_iff.1 h)]
    rfl
  | edgeF ts =>
    rw [encode, decode_op1 (opField_cmdWord _ _ (by decide)), argField_cmdWord _ _ (by decide),
      tsField_cmdWord _ (by decide) (tsFits_iff.1 h)]
    rfl
  | reset => exact decode_op2 (opField_cmdWord _ _ (by decide))
  | isReady => exact decode_op3 (opField_cmdWord _ _ (by decide))
  | valueBits zFill => rw [encode, decode_op4 (opField_cmdWord _ _ (by decide)), argField_cmdWord _ _ (by decide)]
  | zMask zIsOne => rw [encode, decode_op5 (opField_cmdWord _ _ (by decide)), argField_cmdWord _ _ (by decide)]

/-- Only an EDGE is encoded with opcode 1. -/
theorem encode_mod_eight_ne_one {i : Instr} (h : Machine.isEdge i = false) : encode i % 8 ≠ 1 := by
  cases i with
  | edgeR ts => cases h
  | edgeF ts => cases h
  | nop => decide
  | reset => decide
  | isReady => decide
  | valueBits zFill => cases zFill <;> decide
  | zMask zIsOne => cases zIsOne <;> decide

end Sys2Proof

namespace Sys2Proof.Machine

/-- Settles O2: the second clause changes no field that decoding reads for a command without a timestamp. -/
theorem decodeOfEncodeIsIdentity : Obligations.DecodeOfEncodeIsIdentity := by
  refine fun wTs i hwf => ⟨decode_encode hwf, fun hedge k => ?_⟩
  have hop : (encode i + 16 * k) % 8 = encode i % 8 := by omega
  calc decode wTs (encode i + 16 * k)
      = decode wTs (encode i) := decode_congr hop (fun _ => by omega)
          fun h => absurd (hop ▸ h) (encode_mod_eight_ne_one hedge)
    _ = .ok i := decode_encode hwf

/-- Settles O1. -/
theorem opcodeSelectsCommand : Obligations.OpcodeSelectsCommand := by
  refine fun wTs w => ⟨decode_op0, fun hop harg => ?_, decode_edgeF_of_fields, decode_op2, decode_op3, decode_op4,
    decode_op5, decode_reserved⟩
  exact decode_edgeR_of_mod wTs (by omega)

/-- Settles O3, by evaluation of the decoder on the eight words. -/
theorem decodedWordsOfTheVectors : Obligations.DecodedWordsOfTheVectors :=
  ⟨rfl, rfl, rfl, rfl, rfl, rfl, rfl, rfl⟩

/-! ### One step of the port -/

theorem step_of_decode {s : State} {w : Nat} {rest : List Nat} {i : Instr} (hc : s.cmds = w :: rest)
    (hd : decode s.cfg.wTs w = .ok i) : step s = exec i { s with cmds := rest } := by
  simp [step, takeCmd, hc, hd]

/-- Settles O6. -/
theorem stepRunsDecodedCommand : Obligations.StepRunsDecodedCommand :=
  fun _ _ _ _ hc hd => step_of_decode hc hd

/-- Settles O7. -/
theorem stepWithNothingPresented : Obligations.StepWithNothingPresented := by
  intro s hc
  simp [step, takeCmd, hc]

/-- Settles O5: no command is decoded from a reserved opcode. -/
theorem reservedOpcodeRefused : Obligations.ReservedOpcodeRefused := by
  intro s w rest hc hop
  simp [step, takeCmd, hc, decode_reserved hop]

/-- Settles O4: a step reads its word through the decoder only. -/
theorem ignoredBitsHaveNoEffect : Obligations.IgnoredBitsHaveNoEffect := by
  intro s v w rest hop harg hts
  have hd : decode s.cfg.wTs v = decode s.cfg.wTs w := decode_congr hop harg hts
  simp [step, takeCmd, hd]

end Sys2Proof.Machine
end

section
/-! What a command does to a state it has a meaning on, and a delivered stream as the fold of these effects
(20_memory.md section 3). -/

namespace Sys2Proof.Machine

/-! ### The effect of a command -/

/-- The state after an accepted rising edge (R83, R85, R55). -/
def risen (ts : Nat) (s : State) : State :=
  { s with lastEventTime := ts, periodLow := BitVec.ofNat 16 (measured ts s), rsp := 0 }

/-- What each command does where it has a meaning (R47); `exec_eq_perform` ties it to `exec`. -/
def effect (i : Instr) (s : State) : State :=
  match i with
  | .nop => respond 0 s
  | .edgeR ts => intake ts setLow s
  | .edgeF ts => intake ts (fun p s => classifyFalling (setHigh p s)) s
  | .reset => respond 0 (clearAll s)
  | .isReady => respond (readyRsp s) s
  | .valueBits zFill => respond (collect (valueBit zFill s)) s
  | .zMask zIsOne => respond (collect (maskBit zIsOne s)) s

theorem exec_eq_perform (i : Instr) (s : State) : exec i s = perform (effect i) s := by
  cases i <;> rfl

theorem exec_eq_next {i : Instr} {s t : State} : exec i s = .next t ↔ good s = true ∧ t = effect i s := by
  rw [exec_eq_perform, perform_eq_next]

theorem exec_of_good {s : State} (hg : good s = true) (i : Instr) : exec i s = .next (effect i s) :=
  exec_eq_next.2 ⟨hg, rfl⟩

theorem effect_edgeR_of_accepted {ts : Nat} {s : State} (h : Accepted ts s) : effect (.edgeR ts) s = risen ts s :=
  intake_of_accepted _ h

theorem effect_edgeF_of_accepted {ts : Nat} {s : State} (h : Accepted ts s) :
    effect (.edgeF ts) s = classifyFalling (fallen ts s) :=
  intake_of_accepted (fun p s => classifyFalling (setHigh p s)) h

theorem effect_edge_of_not_accepted {i : Instr} {ts : Nat} {s : State} (hi : i = .edgeR ts ∨ i = .edgeF ts)
    (h : ¬ Accepted ts s) : effect i s = respond 0 s := by
  rcases hi with rfl | rfl
  · exact intake_of_not_accepted setLow h
  · exact intake_of_not_accepted (fun p s => classifyFalling (setHigh p s)) h

/-- Everything a command can do: answer, clear, or take an accepted edge. -/
theorem effect_cases (i : Instr) (s : State) :
    (∃ r, effect i s = respond r s) ∨
    (i = .reset ∧ effect i s = respond 0 (clearAll s)) ∨
    (∃ ts, i = .edgeR ts ∧ Accepted ts s ∧ effect i s = risen ts s) ∨
    (∃ ts, i = .edgeF ts ∧ Accepted ts s ∧ effect i s = classifyFalling (fallen ts s)) := by
  cases i with
  | nop => exact .inl ⟨_, rfl⟩
  | reset => exact .inr (.inl ⟨rfl, rfl⟩)
  | isReady => exact .inl ⟨_, rfl⟩
  | valueBits zFill => exact .inl ⟨_, rfl⟩
  | zMask zIsOne => exact .inl ⟨_, rfl⟩
  | edgeR ts =>
    by_cases h : Accepted ts s
    · exact .inr (.inr (.inl ⟨ts, rfl, h, effect_edgeR_of_accepted h⟩))
    · exact .inl ⟨0, effect_edge_of_not_accepted (.inl rfl) h⟩
  | edgeF ts =>
    by_cases h : Accepted ts s
    · exact .inr (.inr (.inr ⟨ts, rfl, h, effect_edgeF_of_accepted h⟩))
    · exact .inl ⟨0, effect_edge_of_not_accepted (.inr rfl) h⟩

/-- No command writes the configuration or the port (R76, R39). -/
theorem effect_cfg_cmds (i : Instr) (s : State) : (effect i s).cfg = s.cfg ∧ (effect i s).cmds = s.cmds := by
  rcases effect_cases i s with ⟨r, e⟩ | ⟨-, e⟩ | ⟨ts, -, -, e⟩ | ⟨ts, -, -, e⟩ <;> rw [e]
  · exact ⟨rfl, rfl⟩
  · exact ⟨rfl, rfl⟩
  · exact ⟨rfl, rfl⟩
  · have h := sameIntake_classifyFalling (fallen ts s)
    exact ⟨h.cfg, h.cmds⟩

@[simp] theorem effect_cfg (i : Instr) (s : State) : (effect i s).cfg = s.cfg := (effect_cfg_cmds i s).1

@[simp] theorem effect_cmds (i : Instr) (s : State) : (effect i s).cmds = s.cmds := (effect_cfg_cmds i s).2

/-- Settles O37. -/
theorem configurationNeverChanges : Obligations.ConfigurationNeverChanges := by
  intro s t h
  rcases step_next_cases h with ⟨-, rfl⟩ | ⟨w, rest, i, -, -, he⟩
  · rfl
  · obtain ⟨-, rfl⟩ := exec_eq_next.1 he
    exact effect_cfg i _

/-- Settles O9: these are the two refusals of `perform`. -/
theorem refusalsOfAllCommands : Obligations.RefusalsOfAllCommands := by
  intro i s
  rw [exec_eq_perform]
  exact ⟨fun hc => by simp [perform, hc], fun hc hl => by simp [perform, hc, hl]⟩

/-! ### What classification neither reads nor writes -/

/-- The time of the last edge and the port replaced: two fields that classification leaves alone. -/
def relabel (last : Nat) (words : List Nat) (s : State) : State := { s with lastEventTime := last, cmds := words }

section
variable (last : Nat) (words : List Nat) (s : State)

theorem complete_relabel : complete (relabel last words s) = relabel last words (complete s) := by
  rw [complete, complete, apply_ite (relabel last words)]
  rfl

theorem syncBit_relabel (a b : Symbol) : syncBit a b (relabel last words s) = relabel last words (syncBit a b s) := by
  cases a <;> cases b <;> rfl

theorem payloadBit_relabel (a b : Symbol) :
    payloadBit a b (relabel last words s) = relabel last words (payloadBit a b s) := by
  rw [payloadBit, payloadBit]
  cases payloadTri a b with
  | none => rfl
  | some t => exact complete_relabel last words (advance (store t s))

theorem pair_relabel (b : Symbol) : pair b (relabel last words s) = relabel last words (pair b s) := by
  simp only [pair, decodePair, apply_ite (relabel last words), ← syncBit_relabel, ← payloadBit_relabel]
  rfl

theorem applyClass_relabel (c : PulseClass) :
    applyClass c (relabel last words s) = relabel last words (applyClass c s) := by
  cases c with
  | sym b => exact pair_relabel last words s b
  | resync => rfl
  | invalid => rfl

theorem pilotCheck_relabel : pilotCheck (relabel last words s) = relabel last words (pilotCheck s) := by
  rw [pilotCheck, pilotCheck, apply_ite (relabel last words)]
  rfl

/-- Classification commutes with replacing the fields it leaves alone (R86 to R97). -/
theorem classifyFalling_relabel :
    classifyFalling (relabel last words s) = relabel last words (classifyFalling s) := by
  have hstate : (relabel last words s).state = s.state := rfl
  simp only [classifyFalling, hstate]
  cases s.state with
  | idle => exact pilotCheck_relabel last words s
  | reading => exact applyClass_relabel last words s _
  | done => rfl

end

/-! ### The port beside a command -/

/-- The state with the words `words` on the port. -/
def setCmds (words : List Nat) (s : State) : State := { s with cmds := words }

@[simp] theorem setCmds_cfg (words : List Nat) (s : State) : (setCmds words s).cfg = s.cfg := rfl

theorem classifyFalling_setCmds (words : List Nat) (s : State) :
    classifyFalling (setCmds words s) = setCmds words (classifyFalling s) := by
  have hlast : (classifyFalling s).lastEventTime = s.lastEventTime := (sameIntake_classifyFalling s).lastEventTime
  calc classifyFalling (setCmds words s)
      = relabel s.lastEventTime words (classifyFalling s) := classifyFalling_relabel _ _ s
    _ = setCmds words (classifyFalling s) := by rw [← hlast]; rfl

/-- A command neither reads nor writes the words behind it on the port (R39). -/
theorem effect_setCmds (i : Instr) (words : List Nat) (s : State) :
    effect i (setCmds words s) = setCmds words (effect i s) := by
  cases i with
  | nop => rfl
  | reset => rfl
  | isReady => rfl
  | valueBits zFill => rfl
  | zMask zIsOne => rfl
  | edgeR ts =>
    by_cases h : Accepted ts s
    · rw [effect_edgeR_of_accepted h]
      exact effect_edgeR_of_accepted (s := setCmds words s) h
    · rw [effect_edge_of_not_accepted (.inl rfl) h]
      exact effect_edge_of_not_accepted (s := setCmds words s) (.inl rfl) h
  | edgeF ts =>
    by_cases h : Accepted ts s
    · rw [effect_edgeF_of_accepted h, ← classifyFalling_setCmds]
      exact effect_edgeF_of_accepted (s := setCmds words s) h
    · rw [effect_edge_of_not_accepted (.inr rfl) h]
      exact effect_edge_of_not_accepted (s := setCmds words s) (.inr rfl) h

/-! ### Streams -/

theorem execAll_cons_of_good {s : State} (hg : good s = true) (i : Instr) (cs : List Instr) :
    execAll (i :: cs) s = execAll cs (effect i s) := by
  rw [execAll, exec_of_good hg]

/-- A refused command is refused whatever stands behind it on the port. -/
theorem exec_setCmds_of_not_good {s : State} (hg : ¬ good s = true) (i : Instr) :
    ∃ r, ∀ words, exec i (setCmds words s) = .refused r := by
  simp only [exec_eq_perform]
  rcases perform_cases (effect i) s with ⟨h, -⟩ | ⟨hc, hl, -⟩ | ⟨hc, -⟩
  · exact absurd h hg
  · exact ⟨.illFormedState, fun words => by
      rw [perform, setCmds_cfg, if_pos hc, show legal (setCmds words s) = false from hl]; rfl⟩
  · exact ⟨.configInvalid, fun words => by rw [perform, setCmds_cfg, hc]; rfl⟩

/-- A stream completes exactly when its first command does and the rest does after it. -/
theorem execAll_cons_eq_next {i : Instr} {cs : List Instr} {s t : State} :
    execAll (i :: cs) s = .next t ↔ good s = true ∧ execAll cs (effect i s) = .next t := by
  by_cases hg : good s = true
  · rw [execAll_cons_of_good hg, and_iff_right hg]
  · obtain ⟨r, hr⟩ := exec_setCmds_of_not_good hg i
    have hs : exec i s = .refused r := hr s.cmds
    simp [execAll, hs, hg]

/-- Settles O8, by induction on the stream: each step takes the next word, which decodes to the next command, and the
words behind it do not matter to its effect. -/
theorem presentedStreamIsLeftFold : Obligations.PresentedStreamIsLeftFold := by
  intro cs
  induction cs with
  | nil => exact fun s _ => rfl
  | cons i cs ih =>
    intro s hwf
    have hstep : step (setCmds ((i :: cs).map encode ++ s.cmds) s) = exec i (setCmds (cs.map encode ++ s.cmds) s) :=
      step_of_decode rfl (decode_encode (hwf i List.mem_cons_self))
    by_cases hg : good s = true
    · calc deliver (i :: cs) s
          = run cs.length (setCmds (cs.map encode ++ s.cmds) (effect i s)) := by
            rw [exec_of_good (by exact hg), effect_setCmds] at hstep
            exact run_next _ hstep
        _ = deliver cs (effect i s) := by rw [← effect_cmds i s]; rfl
        _ = execAll cs (effect i s) := ih _ fun j hj => by
            rw [effect_cfg]; exact hwf j (List.mem_cons_of_mem i hj)
        _ = execAll (i :: cs) s := (execAll_cons_of_good hg i cs).symm
    · obtain ⟨r, hr⟩ := exec_setCmds_of_not_good hg i
      have hs : exec i s = .refused r := hr s.cmds
      rw [execAll, hs]
      exact run_refused _ (hstep.trans (hr _))

theorem deliver_eq_execAll {cs : List Instr} {s : State} (h : ∀ i ∈ cs, i.wellFormed s.cfg.wTs = true) :
    deliver cs s = execAll cs s :=
  presentedStreamIsLeftFold cs s h

end Sys2Proof.Machine
end

section
/-! Everything that classification after an accepted falling edge can do (41_edge_intake.md sections 3 to 6), said
once. -/

namespace Sys2Proof.Machine

/-- The half-periods `pl`, `ph` carry a symbol of value `b` (R89). -/
abbrev CarriesSymbol (c : Cfg) (b : Symbol) (pl ph : Nat) : Prop :=
  if b then inLong c pl = true ∧ inShort c ph = true else inShort c pl = true ∧ inLong c ph = true

/-- The half-periods `pl`, `ph` are a pilot low and a short high (R87, R89). -/
abbrev CarriesPilot (c : Cfg) (pl ph : Nat) : Prop := c.pilotMin < pl ∧ inShort c ph = true

/-- The outcomes of classification, by the control state, the class of the half-periods and the pending half. -/
inductive Classified (s : State) : State → Prop where
  /-- No pilot in `Idle` (R88). -/
  | stay (hi : s.state = .idle) (hp : ¬ CarriesPilot s.cfg s.periodLow.toNat s.periodHigh.toNat) : Classified s s
  /-- A pilot in `Idle` (R87). -/
  | start (hi : s.state = .idle) (hp : CarriesPilot s.cfg s.periodLow.toNat s.periodHigh.toNat) :
      Classified s (enterReading s)
  /-- A pilot in `Reading` (R90). -/
  | restart (hr : s.state = .reading) (hp : CarriesPilot s.cfg s.periodLow.toNat s.periodHigh.toNat) :
      Classified s (resync s)
  /-- Invalid timing (R91). -/
  | invalid (hr : s.state = .reading)
      (hb : ∀ b, ¬ CarriesSymbol s.cfg b s.periodLow.toNat s.periodHigh.toNat)
      (hp : ¬ CarriesPilot s.cfg s.periodLow.toNat s.periodHigh.toNat) : Classified s (abort s)
  /-- The first symbol of a pair (R92). -/
  | first (b : Symbol) (hr : s.state = .reading)
      (hb : CarriesSymbol s.cfg b s.periodLow.toNat s.periodHigh.toNat) (hhalf : s.halfSymbolPending = false) :
      Classified s (capture b s)
  /-- The pair of a sync bit (R94). -/
  | sync (hr : s.state = .reading) (hb : CarriesSymbol s.cfg true s.periodLow.toNat s.periodHigh.toNat)
      (hhalf : s.halfSymbolPending = true) (hk : s.bitIndex.toNat < 2) (ha : s.pendingSymbol = false) :
      Classified s (advance (clearHalf s))
  /-- The pair of a payload bit (R95 to R97). -/
  | payload (b : Symbol) (t : Tri) (hr : s.state = .reading)
      (hb : CarriesSymbol s.cfg b s.periodLow.toNat s.periodHigh.toNat) (hhalf : s.halfSymbolPending = true)
      (hk : 2 ≤ s.bitIndex.toNat) (ht : payloadTri s.pendingSymbol b = some t) :
      Classified s (complete (advance (store t (clearHalf s))))
  /-- A pair that is no bit at its place (R94, R95). -/
  | badPair (b : Symbol) (hr : s.state = .reading)
      (hb : CarriesSymbol s.cfg b s.periodLow.toNat s.periodHigh.toNat) (hhalf : s.halfSymbolPending = true)
      (hpair : s.bitIndex.toNat < 2 ↔ ¬ (s.pendingSymbol = false ∧ b = true)) : Classified s (abort s)
  /-- `Done` classifies nothing. -/
  | ignored (hd : s.state = .done) : Classified s s

theorem decodePair_classified {s : State} {b : Symbol} (hr : s.state = .reading)
    (hb : CarriesSymbol s.cfg b s.periodLow.toNat s.periodHigh.toNat) (hhalf : s.halfSymbolPending = true) :
    Classified s (decodePair s.pendingSymbol b s) := by
  rcases decodePair_cases s.pendingSymbol b s with ⟨hk, e⟩ | ⟨hk, e⟩ <;> rw [e]
  · rcases syncBit_cases s.pendingSymbol b (clearHalf s) with ⟨ha, rfl, e⟩ | ⟨hne, e⟩ <;> rw [e]
    · exact .sync hr hb hhalf hk ha
    · exact .badPair b hr hb hhalf (iff_of_true hk hne)
  · rcases payloadBit_cases s.pendingSymbol b (clearHalf s) with ⟨t, ht, e⟩ | ⟨ha, hb', e⟩ <;> rw [e]
    · exact .payload b t hr hb hhalf hk ht
    · exact .badPair b hr hb hhalf (iff_of_false (by omega) (not_not_intro ⟨ha, hb'⟩))

theorem pair_classified {s : State} {b : Symbol} (hr : s.state = .reading)
    (hb : CarriesSymbol s.cfg b s.periodLow.toNat s.periodHigh.toNat) : Classified s (pair b s) := by
  rcases pair_cases b s with ⟨hhalf, e⟩ | ⟨hhalf, e⟩ <;> rw [e]
  · exact .first b hr hb hhalf
  · exact decodePair_classified hr hb hhalf

theorem classifyFalling_classified (s : State) : Classified s (classifyFalling s) := by
  rcases classifyFalling_cases s with ⟨hi, e⟩ | ⟨hr, e⟩ | ⟨hd, e⟩ <;> rw [e]
  · rcases pilotCheck_cases s with ⟨hlow, hhigh, e⟩ | ⟨hp, e⟩ <;> rw [e]
    · exact .start hi ⟨hlow, hhigh⟩
    · exact .stay hi hp
  · rcases classify_cases s.cfg s.periodLow.toNat s.periodHigh.toNat with
      ⟨hl, hh, e⟩ | ⟨hl, hh, e⟩ | ⟨hl, hh, e⟩ | ⟨h0, h1, h2, e⟩ <;> rw [e]
    · exact pair_classified hr ⟨hl, hh⟩
    · exact pair_classified hr ⟨hl, hh⟩
    · exact .restart hr ⟨isPilot_iff.1 hl, hh⟩
    · exact .invalid hr (Bool.forall_bool.2 ⟨h0, h1⟩) fun hp => h2 ⟨isPilot_iff.2 hp.1, hp.2⟩
  · exact .ignored hd

/-! ### The invariants of reachable states -/

theorem controlLegal_iff (s : State) : controlLegal s = true ↔
    match s.state with
    | .idle => s.bitIndex = 0 ∧ s.halfSymbolPending = false
    | .reading => s.bitIndex.toNat ≤ 19
    | .done => s.bitIndex = 20 ∧ s.halfSymbolPending = false := by
  cases h : s.state <;> simp [controlLegal, h]

theorem bufRead_of_ge (buf : BitBuf) {k : Nat} (h : 24 ≤ k) : bufRead buf k = false := BitVec.getLsbD_of_ge buf k h

/-- The positions that decoding never reaches hold 0, and no position holds the pair (1, 1) (R32, R41). -/
theorem buffersLegal_iff (s : State) : buffersLegal s = true ↔
    (∀ k, k < 2 ∨ 20 ≤ k → bufRead s.valueBuf k = false ∧ bufRead s.zBuf k = false) ∧
      ∀ k, ¬ (bufRead s.zBuf k = true ∧ bufRead s.valueBuf k = true) := by
  have hall (p : Nat → Prop) : (∀ k ∈ [0, 1, 20, 21, 22, 23], p k) ↔ ∀ k < 24, k < 2 ∨ 20 ≤ k → p k := by
    refine ⟨fun h k hk hk' => h k (by simp; omega), fun h k hk => h k ?_ ?_⟩ <;>
      (simp only [List.mem_cons, List.not_mem_nil, or_false] at hk; omega)
  have hout (k : Nat) (hk : ¬ k < 24) : bufRead s.valueBuf k = false ∧ bufRead s.zBuf k = false :=
    ⟨bufRead_of_ge _ (by omega), bufRead_of_ge _ (by omega)⟩
  simp only [buffersLegal, Bool.and_eq_true, List.all_eq_true, Bool.not_eq_true', Bool.and_eq_false_iff, hall,
    List.mem_range]
  refine and_congr ⟨fun h k hk => ?_, fun h k _ => h k⟩ ⟨fun h k ⟨hz, hv⟩ => ?_, fun h k _ => ?_⟩
  · by_cases h24 : k < 24
    · exact h k h24 hk
    · exact hout k h24
  · by_cases h24 : k < 24
    · rcases h k h24 with h | h <;> simp_all
    · simp [hout k h24] at hv
  · simpa [imp_iff_not_or] using h k

theorem good_iff (s : State) : good s = true ↔
    cfgValid s.cfg = true ∧ s.lastEventTime < 2 ^ s.cfg.wTs ∧ controlLegal s = true ∧ buffersLegal s = true := by
  simp only [good, legal, tsFits, Bool.and_eq_true, decide_eq_true_eq, and_assoc]

theorem bitIndex_le_of_reading {s : State} (hc : controlLegal s = true) (hr : s.state = .reading) :
    s.bitIndex.toNat ≤ 19 := by
  simpa only [controlLegal_iff, hr] using hc

/-- `bit_index` counts without wrapping while a frame is in progress (R25). -/
theorem bitIndex_succ {k : BitVec 5} (h : k.toNat ≤ 19) : (k + 1).toNat = k.toNat + 1 := by
  rw [BitVec.toNat_add]
  exact Nat.mod_eq_of_lt (by simp; omega)

/-- The two outcomes of a stored payload bit, by the position it was stored at (R96, R97). -/
theorem complete_stored {s : State} (t : Tri) (hk : s.bitIndex.toNat ≤ 19) :
    complete (advance (store t (clearHalf s))) =
      { advance (store t (clearHalf s)) with state := if s.bitIndex.toNat = 19 then .done else s.state } := by
  have hidx : (advance (store t (clearHalf s))).bitIndex.toNat = s.bitIndex.toNat + 1 := bitIndex_succ hk
  rcases complete_cases (advance (store t (clearHalf s))) with ⟨h, e⟩ | ⟨h, e⟩ <;> rw [hidx] at h <;> rw [e]
  · rw [if_pos (by omega)]
  · rw [if_neg (by omega)]
    rfl

theorem complete_stored_of_lt {s : State} (t : Tri) (hk : s.bitIndex.toNat < 19) :
    complete (advance (store t (clearHalf s))) = advance (store t (clearHalf s)) := by
  rw [complete_stored t hk.le, if_neg hk.ne]
  rfl

theorem Classified.keeps_controlLegal {s t : State} (h : Classified s t) (hc : controlLegal s = true) :
    controlLegal t = true := by
  cases h with
  | stay => exact hc
  | ignored => exact hc
  | start => exact (controlLegal_iff _).2 (Nat.zero_le 19)
  | restart hr => simp [controlLegal_iff, hr]
  | invalid => exact (controlLegal_iff _).2 ⟨rfl, rfl⟩
  | badPair => exact (controlLegal_iff _).2 ⟨rfl, rfl⟩
  | first b hr => simpa [controlLegal_iff, hr] using hc
  | sync hr _ _ hk =>
    have hsucc := bitIndex_succ (bitIndex_le_of_reading hc hr)
    simp only [controlLegal_iff, advance_state, clearHalf_state, hr, advance_bitIndex, clearHalf_bitIndex]
    omega
  | payload b t hr _ _ hk ht =>
    have hle := bitIndex_le_of_reading hc hr
    have hsucc := bitIndex_succ hle
    rw [complete_stored t hle, controlLegal_iff]
    by_cases h19 : s.bitIndex.toNat = 19
    · simp only [h19, if_true]
      exact ⟨BitVec.eq_of_toNat_eq (by rw [advance_bitIndex, store_bitIndex, clearHalf_bitIndex, hsucc, h19]; rfl), rfl⟩
    · simp only [h19, if_false, hr, advance_bitIndex, store_bitIndex, clearHalf_bitIndex]
      omega

theorem not_triZ_and_triValue (t : Tri) : ¬ (triZ t = true ∧ triValue t = true) := by cases t <;> decide

/-- What classification leaves in the buffers: what was there, or one payload bit more, at `bit_index`. -/
theorem Classified.buffers {s t : State} (h : Classified s t) :
    (t.valueBuf = s.valueBuf ∧ t.zBuf = s.zBuf) ∨
    (s.state = .reading ∧ s.halfSymbolPending = true ∧ 2 ≤ s.bitIndex.toNat ∧
      ∃ b, t.valueBuf = bufWrite s.valueBuf s.bitIndex.toNat (triValue b) ∧
        t.zBuf = bufWrite s.zBuf s.bitIndex.toNat (triZ b)) := by
  cases h with
  | payload b t hr _ hhalf hk =>
    refine .inr ⟨hr, hhalf, hk, t, ?_⟩
    rcases complete_cases (advance (store t (clearHalf s))) with ⟨-, e⟩ | ⟨-, e⟩ <;> rw [e] <;> exact ⟨rfl, rfl⟩
  | _ => exact .inl ⟨rfl, rfl⟩

theorem Classified.keeps_buffersLegal {s t : State} (h : Classified s t) (hc : controlLegal s = true)
    (hb : buffersLegal s = true) : buffersLegal t = true := by
  rw [buffersLegal_iff] at hb ⊢
  obtain ⟨hunused, htri⟩ := hb
  rcases h.buffers with ⟨hv, hz⟩ | ⟨hr, -, hk, b, hv, hz⟩ <;> rw [hv, hz]
  · exact ⟨hunused, htri⟩
  · have hle := bitIndex_le_of_reading hc hr
    simp only [bufRead_bufWrite _ _ (show s.bitIndex.toNat < 24 by omega)]
    refine ⟨fun k hk' => ?_, fun k => ?_⟩
    · rw [if_neg (by omega), if_neg (by omega)]
      exact hunused k hk'
    · split
      · exact not_triZ_and_triValue b
      · exact htri k

/-- An accepted falling edge keeps the invariants: `fallen` writes a time in range, and classification keeps them. -/
theorem good_classifyFalling {s : State} (hg : good s = true) : good (classifyFalling s) = true := by
  obtain ⟨hcfg, hlast, hc, hb⟩ := (good_iff s).1 hg
  have h := classifyFalling_classified s
  have hsame := sameIntake_classifyFalling s
  rw [good_iff, hsame.cfg, hsame.lastEventTime]
  exact ⟨hcfg, hlast, h.keeps_controlLegal hc, h.keeps_buffersLegal hc hb⟩

theorem good_fallen {s : State} {ts : Nat} (hg : good s = true) (hts : ts < 2 ^ s.cfg.wTs) :
    good (fallen ts s) = true := by
  obtain ⟨hcfg, -, hc, hb⟩ := (good_iff s).1 hg
  exact (good_iff _).2 ⟨hcfg, hts, hc, hb⟩

theorem good_risen {s : State} {ts : Nat} (hg : good s = true) (hts : ts < 2 ^ s.cfg.wTs) :
    good (risen ts s) = true := by
  obtain ⟨hcfg, -, hc, hb⟩ := (good_iff s).1 hg
  exact (good_iff _).2 ⟨hcfg, hts, hc, hb⟩

theorem good_clearAll {s : State} (hc : cfgValid s.cfg = true) : good (clearAll s) = true :=
  (good_iff _).2 ⟨hc, Nat.two_pow_pos s.cfg.wTs, (controlLegal_iff _).2 ⟨rfl, rfl⟩,
    (buffersLegal_iff _).2 ⟨fun k _ => ⟨bufRead_zero k, bufRead_zero k⟩, fun k h => absurd h.1 (by simp [bufRead])⟩⟩

/-- Every well-formed command keeps the invariants (R32). -/
theorem good_effect {i : Instr} {s : State} (hg : good s = true) (hwf : i.wellFormed s.cfg.wTs = true) :
    good (effect i s) = true := by
  rcases effect_cases i s with ⟨r, e⟩ | ⟨-, e⟩ | ⟨ts, rfl, -, e⟩ | ⟨ts, rfl, -, e⟩ <;> rw [e]
  · exact hg
  · exact good_clearAll (s := s) (cfgValid_of_good hg)
  · exact good_risen hg (tsFits_iff.1 hwf)
  · exact good_classifyFalling (good_fallen hg (tsFits_iff.1 hwf))

/-- Settles O36: a step runs a decoded command, which is well formed, or nothing. -/
theorem everyStepKeepsGood : Obligations.EveryStepKeepsGood := by
  intro s t hg h
  rcases step_next_cases h with ⟨-, rfl⟩ | ⟨w, rest, i, -, hd, he⟩
  · exact hg
  · obtain ⟨-, rfl⟩ := exec_eq_next.1 he
    exact good_effect (s := setCmds rest s) hg (decode_wellFormed hd)

/-- Settles O10: an opcode below 6 decodes, and the command completes on a good state. -/
theorem everyPresentedCommandCompletes : Obligations.EveryPresentedCommandCompletes := by
  intro s w rest hg hc hop
  obtain ⟨i, hd⟩ := exists_decode_of_lt (wTs := s.cfg.wTs) hop
  have hstep : step s = .next (effect i (setCmds rest s)) := by
    rw [step_of_decode hc hd]
    exact exec_of_good (s := setCmds rest s) hg i
  exact ⟨_, hstep, effect_cmds i _, everyStepKeepsGood s _ hg hstep⟩

/-- Settles O42: a position holds no (1, 1). -/
theorem everyPositionIsTriState : Obligations.EveryPositionIsTriState := by
  intro s k hg
  obtain ⟨-, -, -, hb⟩ := (good_iff s).1 hg
  have htri := ((buffersLegal_iff s).1 hb).2 k
  cases hz : bufRead s.zBuf k <;> cases hv : bufRead s.valueBuf k
  · rfl
  · rfl
  · rfl
  · exact absurd ⟨hz, hv⟩ htri

end Sys2Proof.Machine
end

section
/-! What a falling edge does in each case (41_edge_intake.md sections 1 and 3 to 5), and which commands write what. -/

namespace Sys2Proof.Machine

/-! ### The windows of a valid configuration -/

/-- Settles O30: a chain through the thresholds of R74. -/
theorem windowsAreDisjoint : Obligations.WindowsAreDisjoint := by
  intro c p q r hc hp hq hr
  obtain ⟨-, -, ⟨-, hgap, -, hpilot⟩, -⟩ := of_decide_eq_true hc
  rw [inShort_iff] at hp
  rw [inLong_iff] at hq
  rw [isPilot_iff] at hr
  omega

/-- A pilot low is no symbol's low (R74, R77). -/
theorem not_carriesSymbol_of_pilot {c : Cfg} (hc : cfgValid c = true) {pl : Nat} (hp : c.pilotMin < pl) (ph : Nat)
    (b : Symbol) : ¬ CarriesSymbol c b pl ph := by
  obtain ⟨-, -, ⟨-, hgap, hlong, hpilot⟩, -⟩ := of_decide_eq_true hc
  cases b with
  | false =>
    rintro ⟨hlow, -⟩
    have := inShort_iff.1 hlow
    omega
  | true =>
    rintro ⟨hlow, -⟩
    have := inLong_iff.1 hlow
    omega

theorem classify_of_pilot {c : Cfg} (hc : cfgValid c = true) {pl ph : Nat} (hp : CarriesPilot c pl ph) :
    classify c pl ph = .resync := by
  have hno := not_carriesSymbol_of_pilot hc hp.1 ph
  rcases classify_cases c pl ph with ⟨hl, hh, -⟩ | ⟨hl, hh, -⟩ | ⟨-, -, e⟩ | ⟨-, -, hn, -⟩
  · exact absurd ⟨hl, hh⟩ (hno false)
  · exact absurd ⟨hl, hh⟩ (hno true)
  · exact e
  · exact absurd ⟨isPilot_iff.2 hp.1, hp.2⟩ hn

theorem classify_of_invalid {c : Cfg} {pl ph : Nat} (hb : ∀ b, ¬ CarriesSymbol c b pl ph)
    (hp : ¬ CarriesPilot c pl ph) : classify c pl ph = .invalid := by
  rcases classify_cases c pl ph with ⟨hl, hh, -⟩ | ⟨hl, hh, -⟩ | ⟨hl, hh, -⟩ | ⟨-, -, -, e⟩
  · exact absurd ⟨hl, hh⟩ (hb false)
  · exact absurd ⟨hl, hh⟩ (hb true)
  · exact absurd ⟨isPilot_iff.1 hl, hh⟩ hp
  · exact e

/-! ### One accepted falling edge, by the control state -/

theorem classifyFalling_of_idle {s : State} (hi : s.state = .idle) : classifyFalling s = pilotCheck s := by
  simp only [classifyFalling, hi]

theorem classifyFalling_of_reading {s : State} (hr : s.state = .reading) :
    classifyFalling s = applyClass (classify s.cfg s.periodLow.toNat s.periodHigh.toNat) s := by
  simp only [classifyFalling, hr]

theorem pilotCheck_of_pilot {s : State} (h : CarriesPilot s.cfg s.periodLow.toNat s.periodHigh.toNat) :
    pilotCheck s = enterReading s := by
  rcases pilotCheck_cases s with ⟨-, -, e⟩ | ⟨hn, -⟩
  · exact e
  · exact absurd h hn

theorem pilotCheck_of_not_pilot {s : State} (h : ¬ CarriesPilot s.cfg s.periodLow.toNat s.periodHigh.toNat) :
    pilotCheck s = s := by
  rcases pilotCheck_cases s with ⟨hlow, hhigh, -⟩ | ⟨-, e⟩
  · exact absurd ⟨hlow, hhigh⟩ h
  · exact e

section
variable {s : State} {ts : Nat}

theorem exec_edgeF_of_idle (hg : good s = true) (hi : s.state = .idle) (ha : Accepted ts s) :
    exec (.edgeF ts) s = .next (pilotCheck (fallen ts s)) := by
  rw [exec_edgeF_of_accepted hg ha, classifyFalling_of_idle (by exact hi)]

theorem exec_edgeF_of_reading (hg : good s = true) (hr : s.state = .reading) (ha : Accepted ts s) :
    exec (.edgeF ts) s =
      .next (applyClass (classify s.cfg s.periodLow.toNat (measured ts s)) (fallen ts s)) := by
  rw [exec_edgeF_of_accepted hg ha, classifyFalling_of_reading (by exact hr), fallen_periodHigh_toNat]
  rfl

end

/-- Settles O19: such an edge is not accepted. -/
theorem noiseEdgeIsDiscarded : Obligations.NoiseEdgeIsDiscarded := by
  intro s ts d hg hd hts hn
  refine exec_edge_of_not_accepted hg fun ha => ?_
  exact absurd ((accepted_iff_of_delta hd hts).1 ha).2 (Nat.not_le.2 hn)

/-- Settles O22. -/
theorem pilotInIdleStartsFrame : Obligations.PilotInIdleStartsFrame := by
  intro s ts hg hi ha hlow hhigh
  rw [exec_edgeF_of_idle hg hi ha, pilotCheck_of_pilot (s := fallen ts s) ⟨hlow, by rwa [fallen_periodHigh_toNat]⟩]
  rfl

/-- Settles O23. -/
theorem otherFallingEdgeStaysIdle : Obligations.OtherFallingEdgeStaysIdle := by
  intro s ts hg hi ha hn
  rw [exec_edgeF_of_idle hg hi ha, pilotCheck_of_not_pilot (by rwa [fallen_periodHigh_toNat])]

/-- Settles O28: the last case of the classification. -/
theorem invalidTimingAborts : Obligations.InvalidTimingAborts := by
  intro s ts hg hr ha h0 h1 hp
  have hclass : classify s.cfg s.periodLow.toNat (measured ts s) = .invalid :=
    classify_of_invalid (Bool.forall_bool.2 ⟨h0, h1⟩) hp
  rw [exec_edgeF_of_reading hg hr ha, hclass]
  rfl

/-- Settles O29: a pilot low is no symbol's low, so the third case of the classification is reached. -/
theorem pilotWhileReadingResyncs : Obligations.PilotWhileReadingResyncs := by
  intro s ts hg hr ha hlow hhigh
  rw [exec_edgeF_of_reading hg hr ha, classify_of_pilot (cfgValid_of_good hg) ⟨hlow, hhigh⟩]
  rfl

/-! ### The second symbol of a payload bit -/

@[simp] theorem fallen_valueBuf (ts : Nat) (s : State) : (fallen ts s).valueBuf = s.valueBuf := rfl
@[simp] theorem fallen_zBuf (ts : Nat) (s : State) : (fallen ts s).zBuf = s.zBuf := rfl

theorem pair_of_payload {s : State} (b : Symbol) (h : s.halfSymbolPending = true) (hk : 2 ≤ s.bitIndex.toNat) :
    pair b s = payloadBit s.pendingSymbol b (clearHalf s) := by
  rcases pair_cases b s with ⟨h', -⟩ | ⟨-, e⟩
  · simp [h] at h'
  · rcases decodePair_cases s.pendingSymbol b s with ⟨hk', -⟩ | ⟨-, e'⟩
    · omega
    · exact e.trans e'

/-- A pair other than (0, 1) is a bit, with value 1 only for (1, 1) and floating only for (1, 0) (R95). -/
theorem payloadTri_of_ne {a b : Symbol} (h : ¬ (a = false ∧ b = true)) :
    ∃ t, payloadTri a b = some t ∧ triValue t = (a && b) ∧ triZ t = (a && !b) := by
  cases a <;> cases b
  · exact ⟨.zero, rfl, rfl, rfl⟩
  · exact absurd ⟨rfl, rfl⟩ h
  · exact ⟨.floating, rfl, rfl, rfl⟩
  · exact ⟨.one, rfl, rfl, rfl⟩

theorem payloadBit_of_some {a b : Symbol} {t : Tri} (h : payloadTri a b = some t) (s : State) :
    payloadBit a b s = complete (advance (store t s)) := by
  rw [payloadBit, h]

/-- Settles O26: the pair is a bit, stored at `bit_index`, and the twentieth completes the frame. -/
theorem payloadBitIsStored : Obligations.PayloadBitIsStored := by
  intro s ts b hg hr ha hb hhalf hk hne
  obtain ⟨-, -, hc, -⟩ := (good_iff s).1 hg
  have hle : s.bitIndex.toNat ≤ 19 := bitIndex_le_of_reading hc hr
  obtain ⟨t, ht, hv, hz⟩ := payloadTri_of_ne hne
  have hpair : pair b (fallen ts s) = complete (advance (store t (clearHalf (fallen ts s)))) :=
    (pair_of_payload (s := fallen ts s) b hhalf hk).trans (payloadBit_of_some ht _)
  have hstored := complete_stored (s := fallen ts s) t hle
  refine ⟨_, (exec_edgeF_of_symbol hg hr ha hb).trans (by rw [hpair, hstored]), ?_, fun k _ => ?_⟩
  · rw [← hr]
    rfl
  · have hlt : s.bitIndex.toNat < 24 := by omega
    rw [← hv, ← hz]
    exact ⟨bufRead_bufWrite s.valueBuf _ hlt k, bufRead_bufWrite s.zBuf _ hlt k⟩

/-- Settles O27: the pair (0, 1) is no payload bit. -/
theorem payloadZeroOneAborts : Obligations.PayloadZeroOneAborts := by
  intro s ts hg hr ha hb hhalf hk hp
  rw [exec_edgeF_of_symbol hg hr ha hb, pair_of_payload (s := fallen ts s) true hhalf hk, fallen_pendingSymbol, hp]
  rfl

/-! ### Which commands write what -/

/-- In the terms of the statements: the half-periods of the edge at `ts`. -/
theorem carriesSymbol_fallen {s : State} {ts : Nat} {b : Symbol} :
    CarriesSymbol (fallen ts s).cfg b (fallen ts s).periodLow.toNat (fallen ts s).periodHigh.toNat ↔
      CompletesSymbol ts b s := by
  rw [fallen_periodHigh_toNat]
  rfl

theorem completesSymbol_or {s : State} {ts : Nat} {b : Symbol} (h : CompletesSymbol ts b s) :
    CompletesSymbol ts false s ∨ CompletesSymbol ts true s := by
  cases b
  · exact .inl h
  · exact .inr h

/-- Settles O39: the outcomes of a command that change the control state. -/
theorem onlyTheseTransitions : Obligations.OnlyTheseTransitions := by
  intro i s t he hne
  obtain ⟨hg, rfl⟩ := exec_eq_next.1 he
  obtain ⟨-, -, hc, -⟩ := (good_iff s).1 hg
  rcases effect_cases i s with ⟨r, e⟩ | ⟨hi, e⟩ | ⟨ts, hi, -, e⟩ | ⟨ts, hi, ha, e⟩ <;> rw [e] at hne ⊢
  · exact absurd rfl hne
  · exact .inl ⟨hi, rfl⟩
  · exact absurd rfl hne
  refine .inr ⟨ts, hi, ha, ?_⟩
  have hcls := classifyFalling_classified (fallen ts s)
  generalize classifyFalling (fallen ts s) = t at hcls hne ⊢
  cases hcls with
  | stay => exact absurd rfl hne
  | ignored => exact absurd rfl hne
  | restart => exact absurd rfl hne
  | first => exact absurd rfl hne
  | sync => exact absurd rfl hne
  | start hi hp =>
    rw [fallen_periodHigh_toNat] at hp
    exact .inl ⟨hi, rfl, hp⟩
  | invalid hr hb =>
    exact .inr (.inr ⟨hr, rfl, rfl, rfl, .inr ⟨fun h => hb false (carriesSymbol_fallen.2 h),
      fun h => hb true (carriesSymbol_fallen.2 h)⟩⟩)
  | badPair b hr _ hhalf => exact .inr (.inr ⟨hr, rfl, rfl, rfl, .inl hhalf⟩)
  | payload b t hr hb hhalf =>
    have hstored := complete_stored (s := fallen ts s) t (bitIndex_le_of_reading hc hr)
    rw [hstored] at hne ⊢
    by_cases hlast : s.bitIndex.toNat = 19
    · exact .inr (.inl ⟨hr, if_pos hlast, hlast, hhalf, completesSymbol_or (carriesSymbol_fallen.1 hb)⟩)
    · exact absurd (if_neg hlast) hne

/-- What classification writes to `pending_symbol`: the first symbol of a pair (R92). -/
theorem Classified.pendingSymbol {s t : State} (h : Classified s t) : t.pendingSymbol = s.pendingSymbol ∨
    (s.state = .reading ∧ s.halfSymbolPending = false ∧
      CarriesSymbol s.cfg t.pendingSymbol s.periodLow.toNat s.periodHigh.toNat) := by
  cases h with
  | first b hr hb hhalf => exact .inr ⟨hr, hhalf, hb⟩
  | payload b t =>
    rcases complete_cases (advance (store t (clearHalf s))) with ⟨-, e⟩ | ⟨-, e⟩ <;> rw [e] <;> exact .inl rfl
  | _ => exact .inl rfl

/-- Settles O40: each outcome of a command, field by field. -/
theorem onlyTheseCommandsWriteAField : Obligations.OnlyTheseCommandsWriteAField := by
  intro i s t he
  obtain ⟨hg, rfl⟩ := exec_eq_next.1 he
  obtain ⟨-, -, hc, -⟩ := (good_iff s).1 hg
  rcases effect_cases i s with ⟨r, e⟩ | ⟨hi, e⟩ | ⟨ts, hi, ha, e⟩ | ⟨ts, hi, ha, e⟩ <;> rw [e]
  · exact ⟨absurd rfl, absurd rfl, absurd rfl, absurd rfl, fun k h => h.elim (absurd rfl) (absurd rfl)⟩
  · exact ⟨fun _ => .inl ⟨hi, rfl⟩, fun _ => .inl ⟨hi, rfl⟩, fun _ => .inl ⟨hi, rfl⟩, fun _ => .inl ⟨hi, rfl⟩,
      fun k _ => .inl ⟨hi, bufRead_zero k, bufRead_zero k⟩⟩
  · exact ⟨fun _ => .inr ⟨ts, .inl hi, ha, rfl⟩, fun _ => .inr ⟨ts, hi, ha⟩, absurd rfl, absurd rfl,
      fun k h => h.elim (absurd rfl) (absurd rfl)⟩
  have hcls := classifyFalling_classified (fallen ts s)
  have hsame := sameIntake_classifyFalling (fallen ts s)
  refine ⟨fun _ => .inr ⟨ts, .inr hi, ha, hsame.lastEventTime⟩, fun h => absurd hsame.periodLow h,
    fun _ => .inr ⟨ts, hi, ha⟩, fun h => .inr ⟨ts, hi, ha, ?_⟩, fun k h => .inr ⟨ts, hi, ha, ?_⟩⟩
  · rcases hcls.pendingSymbol with hp | ⟨hr, hhalf, hb⟩
    · exact absurd hp h
    · exact ⟨hr, hhalf, carriesSymbol_fallen.1 hb⟩
  · rcases hcls.buffers with ⟨hv, hz⟩ | ⟨hr, hhalf, hk, b, hv, hz⟩ <;> rw [hv, hz] at h
    · exact h.elim (absurd rfl) (absurd rfl)
    · rw [fallen_bitIndex] at hk h
      have hle : s.bitIndex.toNat ≤ 19 := bitIndex_le_of_reading hc hr
      have hpos : k = s.bitIndex.toNat := by
        by_contra hne
        simp [bufRead_bufWrite _ _ (show s.bitIndex.toNat < 24 by omega), hne] at h
      exact ⟨hr, hhalf, hpos, by omega, by omega⟩

end Sys2Proof.Machine
end

section
/-! The accessors, NOP and RESET (42_result_access.md, 43_reset.md), and the buffers' packed view
(20_memory.md section 2). -/

namespace Sys2Proof.Machine

/-! ### Responses -/

theorem response_of_good {s : State} (hg : good s = true) (i : Instr) : response i s = some (effect i s).rsp := by
  rw [response, exec_of_good hg]

/-- Every EDGE answers 0 (R55). -/
theorem effect_edge_rsp {i : Instr} {ts : Nat} (hi : i = .edgeR ts ∨ i = .edgeF ts) (s : State) :
    (effect i s).rsp = 0 := by
  by_cases ha : Accepted ts s
  · rcases hi with rfl | rfl
    · rw [effect_edgeR_of_accepted ha]
      rfl
    · rw [effect_edgeF_of_accepted ha]
      exact (sameIntake_classifyFalling _).rsp
  · rw [effect_edge_of_not_accepted hi ha]
    rfl

/-- A response is computed from the readiness and the buffers (R110 to R113, R55). -/
theorem effect_rsp_congr (i : Instr) {s t : State} (hv : s.valueBuf = t.valueBuf) (hz : s.zBuf = t.zBuf)
    (hd : s.state = .done ↔ t.state = .done) : (effect i s).rsp = (effect i t).rsp := by
  cases i with
  | nop => rfl
  | reset => rfl
  | edgeR ts => rw [effect_edge_rsp (.inl rfl), effect_edge_rsp (.inl rfl)]
  | edgeF ts => rw [effect_edge_rsp (.inr rfl), effect_edge_rsp (.inr rfl)]
  | isReady =>
    have h : readyRsp s = readyRsp t := by simp only [readyRsp_eq, hd]
    exact h
  | valueBits zFill =>
    have h : valueBit zFill s = valueBit zFill t := by
      funext i
      rw [valueBit, valueBit, hv, hz]
    exact congrArg collect h
  | zMask zIsOne =>
    have h : maskBit zIsOne s = maskBit zIsOne t := by
      funext i
      rw [maskBit, maskBit, hz]
    exact congrArg collect h

/-- Settles O41. -/
theorem responsesSeeOnlyReadyAndBuffers : Obligations.ResponsesSeeOnlyReadyAndBuffers := by
  intro i s t hs ht hv hz hd
  rw [response_of_good hs, response_of_good ht, effect_rsp_congr i hv hz hd]

/-- Settles O11: no bit but the opcode's is read for a NOP. -/
theorem nopResult : Obligations.NopResult :=
  ⟨fun _ hg => exec_of_good hg .nop, fun _ _ hop => decode_op0 hop⟩

/-- Settles O13. -/
theorem valueBitsResult : Obligations.ValueBitsResult :=
  fun s zFill hg => ⟨_, exec_of_good hg (.valueBits zFill), rfl, fun _ hi => collect_getLsbD (valueBit zFill s) hi⟩

/-- Settles O14. -/
theorem zMaskResult : Obligations.ZMaskResult :=
  fun s zIsOne hg => ⟨_, exec_of_good hg (.zMask zIsOne), rfl, fun _ hi => collect_getLsbD (maskBit zIsOne s) hi⟩

/-- A 16-bit word is collected from its bits. -/
theorem collect_eq {f : Nat → Bool} {r : Rsp} (h : ∀ i < 16, f i = r.getLsbD i) : collect f = r :=
  BitVec.eq_of_getLsbD_eq fun i hi => (collect_getLsbD f hi).trans (h i hi)

/-- Settles O15: bit by bit, at a Z position and elsewhere. -/
theorem readsAgreeOnFloatingBits : Obligations.ReadsAgreeOnFloatingBits := by
  intro s hg
  refine ⟨_, _, _, _, response_of_good hg _, response_of_good hg _, response_of_good hg _, response_of_good hg _,
    ?_, ?_, ?_⟩
  · refine (collect_eq fun i hi => ?_).symm
    rw [BitVec.getLsbD_xor]
    simp only [effect, respond_rsp, collect_getLsbD _ hi, valueBit, maskBit]
    cases bufRead s.zBuf (exposedPos i) <;> simp
  · refine collect_eq fun i hi => ?_
    rw [BitVec.getLsbD_not]
    simp only [effect, respond_rsp, collect_getLsbD _ hi, maskBit]
    cases bufRead s.zBuf (exposedPos i) <;> simp [hi]
  · refine BitVec.eq_of_getLsbD_eq fun i hi => ?_
    rw [BitVec.getLsbD_and]
    simp only [effect, respond_rsp, collect_getLsbD _ hi, valueBit, maskBit]
    cases bufRead s.zBuf (exposedPos i) <;> simp

/-- Settles O43: byte `k / 8` starts at position `8 * (k / 8)`. -/
theorem packedViewBitOrder : Obligations.PackedViewBitOrder := by
  intro buf k _
  have hbit : k % 8 < 8 := Nat.mod_lt k (by decide)
  rw [packedByte, BitVec.getLsbD_extractLsb', Nat.div_add_mod, decide_eq_true hbit]
  rfl

/-! ### RESET and the construction state -/

/-- The construction state of a valid configuration is good (R150, R32). -/
theorem good_initial {c : Cfg} (hc : cfgValid c = true) : good (State.initial c) = true :=
  good_clearAll (s := State.initial c) hc

/-- Settles O16: RESET clears every dynamic field, and its opcode alone decodes to it. -/
theorem resetResult : Obligations.ResetResult :=
  ⟨fun _ hg => exec_of_good hg .reset, fun _ _ hop => decode_op2 hop⟩

theorem good_effect_reset {s : State} (hg : good s = true) : good (effect .reset s) = true :=
  good_effect hg rfl

/-- Settles O17: the first RESET leaves a good state, on which the second clears what is clear. -/
theorem resetIsIdempotent : Obligations.ResetIsIdempotent :=
  fun _ hg => ⟨_, exec_of_good hg .reset, exec_of_good (good_effect_reset hg) .reset, rfl, rfl⟩

/-- Settles O34. -/
theorem resetStateHoldsConstructionValues : Obligations.ResetStateHoldsConstructionValues :=
  ⟨rfl, rfl, rfl, rfl, rfl, rfl, rfl, rfl, rfl, rfl, rfl⟩

/-- Settles O35: the configuration of log 2 passes R74. -/
theorem resetStateIsGood : Obligations.ResetStateIsGood := by
  have hc : cfgValid exampleCfg = true := by decide
  exact good_initial hc

/-- Settles O46: after RESET the last edge is at 0 and no low half-period is a pilot's. -/
theorem firstEdgeAfterResetMeasuresFromZero : Obligations.FirstEdgeAfterResetMeasuresFromZero := by
  intro s ts hg hts
  have hr := good_effect_reset hg
  have hd : delta s.cfg.wTs ts 0 = ts := by
    simpa [Nat.mod_eq_of_lt hts] using delta_of_lt (last := 0) hts
  refine ⟨_, exec_of_good hg .reset, ⟨_, exec_of_good hr _, ?_⟩, fun hn => ⟨_, exec_of_good hr _, ?_⟩⟩
  · by_cases ha : Accepted ts (effect .reset s)
    · rw [effect_edgeF_of_accepted ha, classifyFalling_of_idle rfl, pilotCheck_of_not_pilot]
      · rfl
      · exact fun hp => Nat.not_lt_zero _ hp.1
    · rw [effect_edge_of_not_accepted (.inr rfl) ha]
      rfl
  · have ha : Accepted ts (effect .reset s) := ⟨nofun, hn.trans_eq hd.symm⟩
    rw [effect_edgeR_of_accepted ha]
    exact (saturate_toNat _).trans (congrArg (min · 65535) hd)

end Sys2Proof.Machine
end

section
/-! Construction (40_construction.md section 1): the integer thresholds against the rational ones. -/

namespace Sys2Proof.Machine

/-- Settles O31. -/
theorem constructionAnswersInitialOrRefuses : Obligations.ConstructionAnswersInitialOrRefuses := by
  intro wTs x c
  refine ⟨fun hc => ⟨if_pos hc, good_initial hc⟩, fun hc => ?_, fun hx => if_pos hx, fun hx => ?_⟩
  · rw [constructDirect, hc]
    rfl
  · rw [construct, hx]
    rfl

/-- On 16-bit half-periods the clamp of an upper threshold decides nothing (R73). -/
theorem le_clamped_floor_iff {q : ℚ} (hq : 0 ≤ q) {p : Nat} (hp : p ≤ 65535) :
    p ≤ min ⌊q⌋₊ 65535 ↔ (p : ℚ) ≤ q := by
  rw [le_min_iff, and_iff_left hp, Nat.le_floor_iff hq]

theorem clamped_floor_lt_iff {q : ℚ} (hq : 0 ≤ q) {p : Nat} (hp : p ≤ 65535) :
    min ⌊q⌋₊ 65535 < p ↔ q < (p : ℚ) := by
  rw [min_lt_iff, or_iff_left (Nat.not_lt.2 hp), Nat.floor_lt hq]

section
variable {x : ConstructInputs} (h : inputsInDomain x = true)
include h

theorem symbolPeriod_pos : 0 < symbolPeriod x := by
  obtain ⟨hf, -, ht, -⟩ := of_decide_eq_true h
  exact div_pos (div_pos (by norm_num) hf) ht

theorem tolerance_bounds : 0 ≤ x.tolerance ∧ x.tolerance < 1 := (of_decide_eq_true h).2.1

theorem shortHiQ_nonneg : 0 ≤ shortHiQ x :=
  mul_nonneg (symbolPeriod_pos h).le (by linarith [(tolerance_bounds h).1])

theorem longHiQ_nonneg : 0 ≤ longHiQ x :=
  mul_nonneg (by linarith [symbolPeriod_pos h]) (by linarith [(tolerance_bounds h).1])

theorem pilotQ_nonneg : 0 ≤ pilotQ x :=
  mul_nonneg (by linarith [symbolPeriod_pos h]) (by linarith [(tolerance_bounds h).2])

end

/-- Settles O32: a natural is compared with a rational as with its ceiling or floor. -/
theorem integerThresholdsAreExact : Obligations.IntegerThresholdsAreExact := by
  intro wTs x p hx hp
  refine ⟨?_, ?_, ?_, fun d => Nat.lt_ceil⟩
  · rw [inShort_iff]
    exact and_congr Nat.ceil_le (le_clamped_floor_iff (shortHiQ_nonneg hx) hp)
  · rw [inLong_iff]
    exact and_congr Nat.ceil_le (le_clamped_floor_iff (longHiQ_nonneg hx) hp)
  · rw [isPilot_iff]
    exact clamped_floor_lt_iff (pilotQ_nonneg hx) hp

/-- With tolerance 0 the short window is a single rational, so the integer window is not of two ends (R74). -/
theorem cfgValid_deriveCfg_of_zero_tolerance (wTs : Nat) {x : ConstructInputs} (h : x.tolerance = 0) :
    cfgValid (deriveCfg wTs x) = false := by
  have hends : (deriveCfg wTs x).shortMax ≤ (deriveCfg wTs x).shortMin := by
    simp only [deriveCfg, shortLoQ, shortHiQ, h, sub_zero, add_zero]
    exact (min_le_left _ _).trans (Nat.floor_le_ceil _)
  refine decide_eq_false fun hv => ?_
  obtain ⟨-, -, ⟨hlt, -⟩, -⟩ := hv
  omega

/-- Settles O33: in the second clause the common factor is the symbol period, which is positive. -/
theorem degenerateTolerances : Obligations.DegenerateTolerances := by
  refine fun wTs x => ⟨fun h => ?_, fun hx => ?_⟩
  · rw [construct, constructDirect, cfgValid_deriveCfg_of_zero_tolerance wTs h]
    cases inputsInDomain x <;> rfl
  · have hfactor : longLoQ x = symbolPeriod x * (2 * (1 - x.tolerance)) := by rw [longLoQ]; ring
    rw [shortHiQ, hfactor, mul_lt_mul_iff_right₀ (symbolPeriod_pos hx)]
    constructor <;> intro h <;> linarith

end Sys2Proof.Machine
end

section
/-! Runs that leave the frame as it is: in `Done`, and under a burst of glitches (20_memory.md section 3,
70_reset_and_hazards.md section 2). -/

namespace Sys2Proof.Machine

/-- A stream of commands each of which only answers, in every state that differs in the answer, only answers. -/
theorem execAll_respond {cs : List Instr} {s : State} (hg : good s = true)
    (h : ∀ i ∈ cs, ∀ r, ∃ r', effect i (respond r s) = respond r' s) :
    ∃ r, execAll cs s = .next (respond r s) := by
  suffices hall : ∀ r, ∃ r', execAll cs (respond r s) = .next (respond r' s) from hall s.rsp
  induction cs with
  | nil => exact fun r => ⟨r, rfl⟩
  | cons i cs ih =>
    intro r
    obtain ⟨r', hr'⟩ := h i List.mem_cons_self r
    rw [execAll_cons_of_good (by exact hg), hr']
    exact ih (fun j hj => h j (List.mem_cons_of_mem i hj)) r'

/-- In `Done` every command but RESET only answers (R49, R81). -/
theorem effect_of_done {i : Instr} {s : State} (hd : s.state = .done) (hi : i ≠ .reset) :
    ∃ r, effect i s = respond r s := by
  rcases effect_cases i s with h | ⟨h, -⟩ | ⟨ts, -, ha, -⟩ | ⟨ts, -, ha, -⟩
  · exact h
  · exact absurd h hi
  · exact absurd hd ha.1
  · exact absurd hd ha.1

/-- Settles O38: in `Done` each command of the stream only answers, and a response is not read by a read. -/
theorem frameIsStableInDone : Obligations.FrameIsStableInDone := by
  intro cs s hg hd hcs
  have hstable : ∀ i ∈ cs, ∀ r, ∃ r', effect i (respond r s) = respond r' s := fun i hi r =>
    effect_of_done (s := respond r s) hd (hcs i hi).2
  obtain ⟨r, hr⟩ := execAll_respond hg hstable
  refine ⟨respond r s, (deliver_eq_execAll fun i hi => (hcs i hi).1).trans hr, rfl, fun i _ => ?_⟩
  exact responsesSeeOnlyReadyAndBuffers i (respond r s) s hg hg rfl rfl Iff.rfl

/-- Settles O45: each edge of the burst is discarded as noise, and `last_event_time` stays what it is measured from. -/
theorem glitchBurstHasNoEffect : Obligations.GlitchBurstHasNoEffect := by
  intro cs s hg hcs
  have hwf : ∀ i ∈ cs, i.wellFormed s.cfg.wTs = true := by
    intro i hi
    obtain ⟨ts, rfl | rfl, hts, -⟩ := hcs i hi <;> exact tsFits_iff.2 hts
  have hdiscarded : ∀ i ∈ cs, ∀ r, ∃ r', effect i (respond r s) = respond r' s := by
    intro i hi r
    obtain ⟨ts, hedge, -, hnoise⟩ := hcs i hi
    exact ⟨0, effect_edge_of_not_accepted (s := respond r s) hedge fun ha => absurd ha.2 (Nat.not_le.2 hnoise)⟩
  obtain ⟨r, hr⟩ := execAll_respond hg hdiscarded
  exact ⟨respond r s, (deliver_eq_execAll hwf).trans hr, rfl⟩

end Sys2Proof.Machine
end

section
/-! The least number of falling edges to a completed frame (41_edge_intake.md section 6). -/

namespace Sys2Proof.Machine

/-- How many falling edges are missing to `Done`: one for a pilot and two for each bit, less the half already there
(R100). -/
def edgesMissing (s : State) : Nat :=
  match s.state with
  | .idle => 41
  | .reading => 40 - 2 * s.bitIndex.toNat - s.halfSymbolPending.toNat
  | .done => 0

theorem edgesMissing_le (s : State) : edgesMissing s ≤ 41 := by
  cases h : s.state <;> simp only [edgesMissing, h] <;> omega

theorem edgesMissing_of_idle {s : State} (h : s.state = .idle) : edgesMissing s = 41 := by simp only [edgesMissing, h]

theorem edgesMissing_of_done {s : State} (h : s.state = .done) : edgesMissing s = 0 := by simp only [edgesMissing, h]

theorem edgesMissing_of_reading {s : State} (h : s.state = .reading) :
    edgesMissing s = 40 - 2 * s.bitIndex.toNat - s.halfSymbolPending.toNat := by simp only [edgesMissing, h]

/-- Classification brings `Done` nearer by one edge at most. -/
theorem Classified.edgesMissing_le_succ {s t : State} (h : Classified s t) (hc : controlLegal s = true) :
    edgesMissing s ≤ edgesMissing t + 1 := by
  cases h with
  | stay => omega
  | ignored => omega
  | start hi =>
    have hfull : edgesMissing (enterReading s) = 40 := rfl
    rw [edgesMissing_of_idle hi, hfull]
  | restart hr =>
    have hfull : edgesMissing (resync s) = 40 := edgesMissing_of_reading hr
    rw [edgesMissing_of_reading hr, hfull]
    omega
  | invalid => exact (edgesMissing_le s).trans (by rw [edgesMissing_of_idle (abort_state s)]; decide)
  | badPair => exact (edgesMissing_le s).trans (by rw [edgesMissing_of_idle (abort_state s)]; decide)
  | first b hr _ hhalf =>
    rw [edgesMissing_of_reading hr, edgesMissing_of_reading (s := capture b s) hr, hhalf, capture_bitIndex,
      capture_halfSymbolPending, Bool.toNat_false, Bool.toNat_true]
    omega
  | sync hr _ hhalf =>
    have hsucc := bitIndex_succ (bitIndex_le_of_reading hc hr)
    rw [edgesMissing_of_reading hr, edgesMissing_of_reading (s := advance (clearHalf s)) hr, hhalf, advance_bitIndex,
      clearHalf_bitIndex, hsucc, advance_halfSymbolPending, clearHalf_halfSymbolPending, Bool.toNat_false,
      Bool.toNat_true]
    omega
  | payload b t hr _ hhalf =>
    have hle := bitIndex_le_of_reading hc hr
    have hsucc := bitIndex_succ hle
    rw [complete_stored t hle, edgesMissing_of_reading hr, hhalf, Bool.toNat_true]
    by_cases hlast : s.bitIndex.toNat = 19
    · omega
    · rw [edgesMissing_of_reading ((if_neg hlast).trans hr)]
      simp only [advance_bitIndex, store_bitIndex, clearHalf_bitIndex, hsucc, advance_halfSymbolPending,
        store_halfSymbolPending, clearHalf_halfSymbolPending, Bool.toNat_false]
      omega

/-- Only a falling edge brings `Done` nearer, by one. -/
theorem edgesMissing_effect {i : Instr} {s : State} (hg : good s = true) :
    edgesMissing s ≤ edgesMissing (effect i s) + (isFalling i).toNat := by
  obtain ⟨-, -, hc, -⟩ := (good_iff s).1 hg
  rcases effect_cases i s with ⟨r, e⟩ | ⟨-, e⟩ | ⟨ts, -, -, e⟩ | ⟨ts, rfl, -, e⟩ <;> rw [e]
  · exact Nat.le_add_right _ _
  · exact (edgesMissing_le s).trans (Nat.le_add_right _ _)
  · exact Nat.le_add_right _ _
  · exact (classifyFalling_classified (fallen ts s)).edgesMissing_le_succ hc

theorem edgesMissing_execAll : ∀ {cs : List Instr} {s t : State}, execAll cs s = .next t →
    edgesMissing s ≤ edgesMissing t + (cs.filter isFalling).length
  | [], s, t, h => by
    cases h
    exact Nat.le_add_right _ _
  | i :: cs, s, t, h => by
    obtain ⟨hg, hrest⟩ := execAll_cons_eq_next.1 h
    have hhead := edgesMissing_effect (i := i) hg
    have htail := edgesMissing_execAll hrest
    have hlen : ((i :: cs).filter isFalling).length = (cs.filter isFalling).length + (isFalling i).toNat := by
      cases hf : isFalling i <;> simp [hf]
    omega

/-- Settles O49: from `Idle` 41 falling edges are missing, and in `Done` none. -/
theorem doneNeedsFortyOneFallingEdges : Obligations.DoneNeedsFortyOneFallingEdges := by
  intro cs s t hi hwf hrun hd
  rw [deliver_eq_execAll hwf] at hrun
  have h := edgesMissing_execAll hrun
  rw [edgesMissing_of_idle hi, edgesMissing_of_done hd] at h
  omega

end Sys2Proof.Machine
end

section
/-! Two runs side by side: shifted in time (41_edge_intake.md section 6), and with another frame's leftovers in the
buffers (70_reset_and_hazards.md section 2). -/

namespace Sys2Proof.Machine

/-- A relation that every command of `cs` keeps on good states, with its counterpart under `f`, relates the ends of the
two runs. -/
theorem execAll_related {R : State → State → Prop} {f : Instr → Instr} :
    ∀ {cs : List Instr} {s t u : State},
      (∀ i ∈ cs, ∀ s t, good s = true → good t = true → R s t → R (effect i s) (effect (f i) t)) →
      (∀ i ∈ cs, (f i).wellFormed t.cfg.wTs = true) → (∀ i ∈ cs, i.wellFormed s.cfg.wTs = true) →
      good s = true → good t = true → R s t → execAll cs s = .next u →
      ∃ v, execAll (cs.map f) t = .next v ∧ R u v
  | [], s, t, u, _, _, _, _, _, hR, hrun => by
    cases hrun
    exact ⟨t, rfl, hR⟩
  | i :: cs, s, t, u, hstep, hft, hfs, hs, ht, hR, hrun => by
    simp only [List.forall_mem_cons] at hstep hft hfs
    rw [execAll_cons_of_good hs] at hrun
    rw [List.map_cons, execAll_cons_of_good ht]
    refine execAll_related hstep.2 ?_ ?_ (good_effect hs hfs.1) (good_effect ht hft.1) (hstep.1 s t hs ht hR) hrun
    · simpa using hft.2
    · simpa using hfs.2

theorem deliver_related {R : State → State → Prop} {f : Instr → Instr} {cs : List Instr} {s t u : State}
    (hstep : ∀ i ∈ cs, ∀ s t, good s = true → good t = true → R s t → R (effect i s) (effect (f i) t))
    (hft : ∀ i ∈ cs, (f i).wellFormed t.cfg.wTs = true) (hfs : ∀ i ∈ cs, i.wellFormed s.cfg.wTs = true)
    (hs : good s = true) (ht : good t = true) (hR : R s t) (hrun : deliver cs s = .next u) :
    ∃ v, deliver (cs.map f) t = .next v ∧ R u v := by
  have hft' : ∀ i ∈ cs.map f, i.wellFormed t.cfg.wTs = true := by simpa using hft
  rw [deliver_eq_execAll hfs] at hrun
  rw [deliver_eq_execAll hft']
  exact execAll_related hstep hft hfs hs ht hR hrun

/-! ### Shifted time -/

/-- A difference modulo `2^W_TS` does not see a shift of both its terms (R99). -/
theorem delta_shift (wTs ts last d : Nat) :
    delta wTs ((ts + d) % 2 ^ wTs) ((last + d) % 2 ^ wTs) = delta wTs ts last := by
  rw [delta, delta, Int.natCast_emod, Int.natCast_emod, Int.emod_sub_emod, Int.sub_emod_emod]
  congr 2
  push_cast
  ring

theorem accepted_shift {ts d : Nat} {s : State} :
    Accepted ((ts + d) % 2 ^ s.cfg.wTs) (shiftState d s) ↔ Accepted ts s := by
  rw [Accepted, shiftState_cfg, shiftState_lastEventTime, delta_shift]
  rfl

theorem measured_shift (ts d : Nat) (s : State) :
    measured ((ts + d) % 2 ^ s.cfg.wTs) (shiftState d s) = measured ts s := by
  rw [measured, shiftState_cfg, shiftState_lastEventTime, delta_shift]
  rfl

theorem classifyFalling_shift (d : Nat) (s : State) :
    classifyFalling (shiftState d s) = shiftState d (classifyFalling s) := by
  have h := sameIntake_classifyFalling s
  calc classifyFalling (shiftState d s)
      = relabel ((s.lastEventTime + d) % 2 ^ s.cfg.wTs) s.cmds (classifyFalling s) := classifyFalling_relabel _ _ s
    _ = shiftState d (classifyFalling s) := by
      rw [shiftState, relabel, h.lastEventTime, h.cfg, ← h.cmds]

theorem risen_shift (ts d : Nat) (s : State) :
    risen ((ts + d) % 2 ^ s.cfg.wTs) (shiftState d s) = shiftState d (risen ts s) := by
  rw [risen, measured_shift]
  rfl

theorem fallen_shift (ts d : Nat) (s : State) :
    fallen ((ts + d) % 2 ^ s.cfg.wTs) (shiftState d s) = shiftState d (fallen ts s) := by
  rw [fallen, measured_shift]
  rfl

/-- Every command but RESET commutes with a shift of time (R99). -/
theorem effect_shift {i : Instr} (hi : i ≠ .reset) (d : Nat) (s : State) :
    effect (shiftInstr s.cfg.wTs d i) (shiftState d s) = shiftState d (effect i s) := by
  cases i with
  | nop => rfl
  | reset => exact absurd rfl hi
  | isReady => rfl
  | valueBits zFill => rfl
  | zMask zIsOne => rfl
  | edgeR ts =>
    by_cases ha : Accepted ts s
    · rw [effect_edgeR_of_accepted ha, ← risen_shift]
      exact effect_edgeR_of_accepted (accepted_shift.2 ha)
    · rw [effect_edge_of_not_accepted (.inl rfl) ha]
      exact effect_edge_of_not_accepted (.inl rfl) (mt accepted_shift.1 ha)
  | edgeF ts =>
    by_cases ha : Accepted ts s
    · rw [effect_edgeF_of_accepted ha, ← classifyFalling_shift, ← fallen_shift]
      exact effect_edgeF_of_accepted (accepted_shift.2 ha)
    · rw [effect_edge_of_not_accepted (.inr rfl) ha]
      exact effect_edge_of_not_accepted (.inr rfl) (mt accepted_shift.1 ha)

theorem good_shiftState {s : State} (hg : good s = true) (d : Nat) : good (shiftState d s) = true := by
  obtain ⟨hcfg, -, hc, hb⟩ := (good_iff s).1 hg
  exact (good_iff _).2 ⟨hcfg, Nat.mod_lt _ (Nat.two_pow_pos _), hc, hb⟩

theorem shiftInstr_wellFormed {wTs d : Nat} {i : Instr} (h : i.wellFormed wTs = true) :
    (shiftInstr wTs d i).wellFormed wTs = true := by
  cases i with
  | edgeR ts => exact tsFits_iff.2 (Nat.mod_lt _ (Nat.two_pow_pos wTs))
  | edgeF ts => exact tsFits_iff.2 (Nat.mod_lt _ (Nat.two_pow_pos wTs))
  | _ => exact h

/-- `t` is the state `s` of timestamp width `wTs` with its time shifted by `d`. -/
def Shifted (wTs d : Nat) (s t : State) : Prop := s.cfg.wTs = wTs ∧ t = shiftState d s

/-- Settles O50: commands commute with the shift, one by one. -/
theorem timeShiftChangesNothing : Obligations.TimeShiftChangesNothing := by
  intro cs s t d hg hcs hrun
  have hstep : ∀ i ∈ cs, ∀ u v, good u = true → good v = true → Shifted s.cfg.wTs d u v →
      Shifted s.cfg.wTs d (effect i u) (effect (shiftInstr s.cfg.wTs d i) v) := by
    rintro i hi u _ - - ⟨hw, rfl⟩
    exact ⟨by rw [effect_cfg, hw], hw ▸ effect_shift (hcs i hi).2 d u⟩
  obtain ⟨_, hrun', -, rfl⟩ := deliver_related (t := shiftState d s) hstep
    (fun i hi => shiftInstr_wellFormed (hcs i hi).1) (fun i hi => (hcs i hi).1) hg (good_shiftState hg d) ⟨rfl, rfl⟩ hrun
  exact hrun'

/-! ### Leftovers of an earlier frame -/

/-- The state with other contents of the buffers and of `pending_symbol`. -/
def leave (v z : BitBuf) (p : Symbol) (s : State) : State := { s with valueBuf := v, zBuf := z, pendingSymbol := p }

/-- Contents that the frame in progress will overwrite or never read: they agree with those of `s` on a pending half and on
the bits already decoded. -/
structure Unseen (v z : BitBuf) (p : Symbol) (s : State) : Prop where
  pending : s.halfSymbolPending = true → p = s.pendingSymbol
  decoded : ∀ k < s.bitIndex.toNat, bufRead v k = bufRead s.valueBuf k ∧ bufRead z k = bufRead s.zBuf k

/-- The states are the same, or differ before `Done` in the response and in what the frame in progress does not see. -/
def SameFrame (s t : State) : Prop :=
  t = s ∨ (s.state ≠ .done ∧ ∃ v z p r, t = respond r (leave v z p s) ∧ Unseen v z p s)

/-- With no half pending and no bit decoded nothing has been seen. -/
theorem unseen_of_start {s : State} (hk : s.bitIndex = 0) (hhalf : s.halfSymbolPending = false) (v z : BitBuf)
    (p : Symbol) : Unseen v z p s where
  pending h := by simp [hhalf] at h
  decoded k h := by simp [hk] at h

theorem sameFrame_leave {s : State} (hd : s.state ≠ .done) {v z : BitBuf} {p : Symbol} (h : Unseen v z p s) :
    SameFrame s (leave v z p s) :=
  .inr ⟨hd, v, z, p, s.rsp, rfl, h⟩

/-! A frame that is left or begun leaves nothing to see. -/

section
variable {s : State} {v z : BitBuf} {p : Symbol}

theorem sameFrame_abort : SameFrame (abort s) (abort (leave v z p s)) :=
  sameFrame_leave (s := abort s) nofun (unseen_of_start rfl rfl v z p)

theorem sameFrame_resync (hr : s.state = .reading) : SameFrame (resync s) (resync (leave v z p s)) :=
  sameFrame_leave (s := resync s) (by simp [hr]) (unseen_of_start rfl rfl v z p)

theorem sameFrame_pilotCheck (hi : s.state = .idle) (h : Unseen v z p s) :
    SameFrame (pilotCheck s) (pilotCheck (leave v z p s)) := by
  by_cases hp : CarriesPilot s.cfg s.periodLow.toNat s.periodHigh.toNat
  · rw [pilotCheck_of_pilot hp, pilotCheck_of_pilot (s := leave v z p s) hp]
    exact sameFrame_leave (s := enterReading s) nofun (unseen_of_start rfl rfl v z p)
  · rw [pilotCheck_of_not_pilot hp, pilotCheck_of_not_pilot (s := leave v z p s) hp]
    exact sameFrame_leave (by simp [hi]) h

/-- The first symbol of a pair is written over what was left in `pending_symbol` (R92). -/
theorem sameFrame_capture (hr : s.state = .reading) (h : Unseen v z p s) (b : Symbol) :
    SameFrame (capture b s) (capture b (leave v z p s)) :=
  sameFrame_leave (s := capture b s) (p := b) (by simp [hr]) ⟨fun _ => rfl, h.decoded⟩

end

/-- Positions below `k` that agree, and `k` itself once both have been written. -/
theorem bufRead_bufWrite_congr {v w : BitBuf} {k : Nat} (b : Bool) (hk : k < 24)
    (h : ∀ j < k, bufRead v j = bufRead w j) :
    ∀ j < k + 1, bufRead (bufWrite v k b) j = bufRead (bufWrite w k b) j := by
  intro j hj
  rw [bufRead_bufWrite v b hk, bufRead_bufWrite w b hk]
  split
  · rfl
  · exact h j (by omega)

theorem buf_eq_of_bufRead {v w : BitBuf} (h : ∀ k, bufRead v k = bufRead w k) : v = w :=
  BitVec.eq_of_getLsbD_eq fun k _ => h k

/-- Two buffers that agree on the twenty bits of a frame and hold 0 outside are the same (R32). -/
theorem buf_eq_of_frame {v w : BitBuf} (h : ∀ k < 20, bufRead v k = bufRead w k)
    (hv : ∀ k, 20 ≤ k → bufRead v k = false) (hw : ∀ k, 20 ≤ k → bufRead w k = false) : v = w :=
  buf_eq_of_bufRead fun k => by
    by_cases hk : k < 20
    · exact h k hk
    · rw [hv k (by omega), hw k (by omega)]

section
variable {s : State} {v z : BitBuf} {p : Symbol}

theorem sameFrame_syncBit (hr : s.state = .reading) (hhalf : s.halfSymbolPending = false) (hk : s.bitIndex.toNat < 2)
    (hs : buffersLegal s = true) (ht : buffersLegal (leave v z p s) = true) (a b : Symbol) :
    SameFrame (syncBit a b s) (syncBit a b (leave v z p s)) := by
  rcases syncBit_cases a b s with ⟨rfl, rfl, -⟩ | ⟨hne, e⟩
  · refine sameFrame_leave (s := advance s) (by simp [hr]) ⟨fun h => by simp [hhalf] at h, fun k hlt => ?_⟩
    rw [advance_bitIndex, bitIndex_succ (by omega)] at hlt
    obtain ⟨hv, hz⟩ := ((buffersLegal_iff s).1 hs).1 k (.inl (by omega))
    obtain ⟨hv', hz'⟩ := ((buffersLegal_iff _).1 ht).1 k (.inl (by omega))
    exact ⟨hv'.trans hv.symm, hz'.trans hz.symm⟩
  · rcases syncBit_cases a b (leave v z p s) with ⟨rfl, rfl, -⟩ | ⟨-, e'⟩
    · exact absurd ⟨rfl, rfl⟩ hne
    · rw [e, e']
      exact sameFrame_abort

/-- A payload bit is stored alike; the twentieth leaves no position of the frame unwritten (R96, R97). -/
theorem sameFrame_payload (hr : s.state = .reading) (hhalf : s.halfSymbolPending = true)
    (hle : s.bitIndex.toNat ≤ 19) (hs : buffersLegal s = true) (ht : buffersLegal (leave v z p s) = true)
    (h : Unseen v z p s) (t : Tri) :
    SameFrame (complete (advance (store t (clearHalf s))))
      (complete (advance (store t (clearHalf (leave v z p s))))) := by
  have hlt : s.bitIndex.toNat < 24 := by omega
  have hp : p = s.pendingSymbol := h.pending hhalf
  have hv := bufRead_bufWrite_congr (triValue t) hlt fun k hk => (h.decoded k hk).1
  have hz := bufRead_bufWrite_congr (triZ t) hlt fun k hk => (h.decoded k hk).2
  have hidx : (s.bitIndex + 1).toNat = s.bitIndex.toNat + 1 := bitIndex_succ hle
  by_cases hlast : s.bitIndex.toNat = 19
  · have hout {w : BitBuf} {b : Bool} (hw : ∀ k, 20 ≤ k → bufRead w k = false) (k : Nat) (hk : 20 ≤ k) :
        bufRead (bufWrite w s.bitIndex.toNat b) k = false := by
      rw [bufRead_bufWrite w b hlt, if_neg (by omega)]
      exact hw k hk
    have hs' := ((buffersLegal_iff s).1 hs).1
    have ht' := ((buffersLegal_iff _).1 ht).1
    rw [hlast] at hv hz hout
    have hvEq := buf_eq_of_frame hv (hout fun k hk => (ht' k (.inr hk)).1) (hout fun k hk => (hs' k (.inr hk)).1)
    have hzEq := buf_eq_of_frame hz (hout fun k hk => (ht' k (.inr hk)).2) (hout fun k hk => (hs' k (.inr hk)).2)
    left
    rw [complete_stored t hle, complete_stored (s := leave v z p s) t hle]
    simp only [advance, store, clearHalf, leave, hlast, hvEq, hzEq, hp]
  · rw [complete_stored_of_lt t (by omega), complete_stored_of_lt (s := leave v z p s) t (Nat.lt_of_le_of_ne hle hlast)]
    refine sameFrame_leave (s := advance (store t (clearHalf s))) (by simp [hr]) ⟨fun _ => hp, fun k hk => ?_⟩
    rw [advance_bitIndex, store_bitIndex, clearHalf_bitIndex, hidx] at hk
    exact ⟨hv k hk, hz k hk⟩

theorem sameFrame_pair (hr : s.state = .reading) (hc : controlLegal s = true) (hs : buffersLegal s = true)
    (ht : buffersLegal (leave v z p s) = true) (h : Unseen v z p s) (b : Symbol) :
    SameFrame (pair b s) (pair b (leave v z p s)) := by
  rcases pair_cases b s with ⟨hhalf, e⟩ | ⟨hhalf, -⟩
  · rw [e, pair_of_no_half (s := leave v z p s) b hhalf]
    exact sameFrame_capture hr h b
  have hp : (leave v z p s).pendingSymbol = s.pendingSymbol := h.pending hhalf
  by_cases hk : s.bitIndex.toNat < 2
  · rw [pair_of_sync b hhalf hk, pair_of_sync (s := leave v z p s) b hhalf hk, hp]
    exact sameFrame_syncBit (s := clearHalf s) hr rfl hk hs ht _ _
  · rw [pair_of_payload b hhalf (by omega), pair_of_payload (s := leave v z p s) b hhalf (Nat.le_of_not_lt hk), hp]
    cases hbit : payloadTri s.pendingSymbol b with
    | none =>
      simp only [payloadBit, hbit]
      exact sameFrame_abort
    | some t =>
      rw [payloadBit_of_some hbit, payloadBit_of_some hbit]
      exact sameFrame_payload hr hhalf (bitIndex_le_of_reading hc hr) hs ht h t

theorem sameFrame_classifyFalling (hd : s.state ≠ .done) (hc : controlLegal s = true) (hs : buffersLegal s = true)
    (ht : buffersLegal (leave v z p s) = true) (h : Unseen v z p s) :
    SameFrame (classifyFalling s) (classifyFalling (leave v z p s)) := by
  cases hstate : s.state with
  | done => exact absurd hstate hd
  | idle =>
    rw [classifyFalling_of_idle hstate, classifyFalling_of_idle (s := leave v z p s) hstate]
    exact sameFrame_pilotCheck hstate h
  | reading =>
    rw [classifyFalling_of_reading hstate, classifyFalling_of_reading (s := leave v z p s) hstate]
    show SameFrame (applyClass (classify s.cfg s.periodLow.toNat s.periodHigh.toNat) s)
      (applyClass (classify s.cfg s.periodLow.toNat s.periodHigh.toNat) (leave v z p s))
    cases classify s.cfg s.periodLow.toNat s.periodHigh.toNat with
    | sym b => exact sameFrame_pair hstate hc hs ht h b
    | resync => exact sameFrame_resync hstate
    | invalid => exact sameFrame_abort

end

/-- Every command keeps what was left unseen, or makes the two states the same. -/
theorem sameFrame_effect (i : Instr) {s t : State} (hs : good s = true) (ht : good t = true) (h : SameFrame s t) :
    SameFrame (effect i s) (effect i t) := by
  rcases h with rfl | ⟨hd, v, z, p, r, rfl, h⟩
  · exact .inl rfl
  obtain ⟨-, -, hc, hb⟩ := (good_iff s).1 hs
  obtain ⟨-, -, -, hb'⟩ := (good_iff _).1 ht
  have hanswer (r₁ r₂ : Rsp) : SameFrame (respond r₁ s) (respond r₂ (leave v z p s)) :=
    .inr ⟨hd, v, z, p, r₂, rfl, ⟨h.pending, h.decoded⟩⟩
  cases i with
  | nop => exact hanswer _ _
  | isReady => exact hanswer _ _
  | valueBits zFill => exact hanswer _ _
  | zMask zIsOne => exact hanswer _ _
  | reset => exact .inl rfl
  | edgeR ts =>
    by_cases ha : Accepted ts s
    · rw [effect_edgeR_of_accepted ha, effect_edgeR_of_accepted (s := respond r (leave v z p s)) ha]
      exact sameFrame_leave (s := risen ts s) hd ⟨h.pending, h.decoded⟩
    · rw [effect_edge_of_not_accepted (.inl rfl) ha,
        effect_edge_of_not_accepted (s := respond r (leave v z p s)) (.inl rfl) ha]
      exact hanswer _ _
  | edgeF ts =>
    by_cases ha : Accepted ts s
    · rw [effect_edgeF_of_accepted ha, effect_edgeF_of_accepted (s := respond r (leave v z p s)) ha]
      exact sameFrame_classifyFalling (s := fallen ts s) hd hc hb hb' ⟨h.pending, h.decoded⟩
    · rw [effect_edge_of_not_accepted (.inr rfl) ha,
        effect_edge_of_not_accepted (s := respond r (leave v z p s)) (.inr rfl) ha]
      exact hanswer _ _

/-- Settles O51: at the start of a frame nothing has been seen, and what is left unseen is gone in `Done`. -/
theorem staleFrameNeverShows : Obligations.StaleFrameNeverShows := by
  intro cs s t v z p hs hs' hd hk hhalf hwf hrun hdone
  have hstart : SameFrame s (leave v z p s) := sameFrame_leave hd (unseen_of_start hk hhalf v z p)
  obtain ⟨u, hrun', hend⟩ := deliver_related (f := id) (t := leave v z p s)
    (fun i _ _ _ hg hg' h => sameFrame_effect i hg hg' h) hwf hwf hs hs' hstart hrun
  rw [List.map_id] at hrun'
  rcases hend with rfl | ⟨hne, -⟩
  · exact hrun'
  · exact absurd hdone hne

end Sys2Proof.Machine
end

section
/-! Pulse trains and the frame they carry (42_result_access.md, 41_edge_intake.md section 6). -/

namespace Sys2Proof.Machine

/-! ### Trains -/

theorem train_wellFormed {wTs : Nat} : ∀ {pulses : List (Nat × Nat)} {t : Nat},
    ∀ i ∈ train wTs t pulses, i.wellFormed wTs = true
  | [], _, i, hi => by cases hi
  | (lo, hi) :: pulses, t, i, h => by
    rcases List.mem_append.1 h with h | h
    · rcases List.mem_pair.1 h with rfl | rfl <;> exact tsFits_iff.2 (Nat.mod_lt _ (Nat.two_pow_pos wTs))
    · exact train_wellFormed i h

theorem train_length (wTs : Nat) : ∀ (t : Nat) (pulses : List (Nat × Nat)),
    (train wTs t pulses).length = 2 * pulses.length
  | _, [] => rfl
  | t, (lo, hi) :: pulses => by
    rw [train, List.length_append, train_length wTs _ pulses, List.length_cons]
    exact Nat.add_comm 2 _

/-- Every bit is two symbols (R57). -/
theorem BitSpec.symbols_pair (b : BitSpec) : ∃ x y, b.symbols = [x, y] := by
  rcases b with _ | t
  · exact ⟨_, _, rfl⟩
  · cases t <;> exact ⟨_, _, rfl⟩

theorem symbolPulse_sum (S L : Nat) (b : Symbol) : (symbolPulse S L b).1 + (symbolPulse S L b).2 = S + L := by
  cases b
  · rfl
  · exact Nat.add_comm L S

/-- Settles O44: each of the two symbols of a bit is a short and a long half-period, in one order or the other. -/
theorem bitExpansionSpans : Obligations.BitExpansionSpans := by
  intro wTs t S L b
  obtain ⟨x, y, hb⟩ := b.symbols_pair
  have hx := symbolPulse_sum S L x
  have hy := symbolPulse_sum S L y
  rw [Asm.expand, hb]
  have hend : t + (symbolPulse S L x).1 + (symbolPulse S L x).2 + (symbolPulse S L y).1 + (symbolPulse S L y).2 =
      t + 2 * (S + L) := by omega
  rw [← hend]
  exact ⟨train_length wTs t _, rfl⟩

/-! ### One pulse -/

/-- The state in which the falling edge of a pulse is classified: both half-periods recorded (R83 to R86). -/
def pulsed (t : Nat) (pulse : Nat × Nat) (s : State) : State :=
  { s with
    lastEventTime := (t + pulse.1 + pulse.2) % 2 ^ s.cfg.wTs
    periodLow := saturate pulse.1
    periodHigh := saturate pulse.2
    rsp := 0 }

@[simp] theorem pulsed_cfg (t : Nat) (pulse : Nat × Nat) (s : State) : (pulsed t pulse s).cfg = s.cfg := rfl

/-- The state after a pulse. -/
def afterPulse (t : Nat) (pulse : Nat × Nat) (s : State) : State := classifyFalling (pulsed t pulse s)

/-- A good state of configuration `c` whose last accepted edge was at time `t`, counted without wrap. -/
structure AtTime (c : Cfg) (t : Nat) (s : State) : Prop where
  good : good s = true
  cfg : s.cfg = c
  time : s.lastEventTime = t % 2 ^ c.wTs

theorem atTime_self {s : State} (hg : good s = true) : AtTime s.cfg s.lastEventTime s :=
  ⟨hg, rfl, (Nat.mod_eq_of_lt ((good_iff s).1 hg).2.1).symm⟩

section
variable {c : Cfg} {s : State} {t : Nat} {pulse : Nat × Nat}

theorem atTime_afterPulse (h : AtTime c t s) : AtTime c (t + pulse.1 + pulse.2) (afterPulse t pulse s) := by
  obtain ⟨hg, rfl, -⟩ := h
  obtain ⟨hcfg, -, hc, hb⟩ := (good_iff s).1 hg
  have hsame := sameIntake_classifyFalling (pulsed t pulse s)
  have hpulsed := (good_iff (pulsed t pulse s)).2 ⟨hcfg, Nat.mod_lt _ (Nat.two_pow_pos _), hc, hb⟩
  exact ⟨good_classifyFalling hpulsed, hsame.cfg, hsame.lastEventTime⟩

/-- The two edges of a pulse that is measured as it is are accepted and record its half-periods, the wrap of the counter
included (R82 to R86, R99). -/
theorem execAll_train_cons (h : AtTime c t s) (hd : s.state ≠ .done) (hlo : MeasuredAsIs c pulse.1)
    (hhi : MeasuredAsIs c pulse.2) (pulses : List (Nat × Nat)) :
    execAll (train c.wTs t (pulse :: pulses)) s =
      execAll (train c.wTs (t + pulse.1 + pulse.2) pulses) (afterPulse t pulse s) := by
  obtain ⟨lo, hi⟩ := pulse
  obtain ⟨hg, rfl, ht⟩ := h
  have hrise : (s.lastEventTime + lo) % 2 ^ s.cfg.wTs = (t + lo) % 2 ^ s.cfg.wTs := by rw [ht, Nat.mod_add_mod]
  have hfall : ((t + lo) % 2 ^ s.cfg.wTs + hi) % 2 ^ s.cfg.wTs = (t + lo + hi) % 2 ^ s.cfg.wTs := Nat.mod_add_mod ..
  have hlow : Accepted ((t + lo) % 2 ^ s.cfg.wTs) s := (accepted_iff_of_delta hlo.2 hrise).2 ⟨hd, hlo.1⟩
  have hgood := good_risen (ts := (t + lo) % 2 ^ s.cfg.wTs) hg (Nat.mod_lt _ (Nat.two_pow_pos _))
  have hhigh : Accepted ((t + lo + hi) % 2 ^ s.cfg.wTs) (risen ((t + lo) % 2 ^ s.cfg.wTs) s) :=
    (accepted_iff_of_delta (s := risen _ s) hhi.2 hfall).2 ⟨hd, hhi.1⟩
  have hpulsed : fallen ((t + lo + hi) % 2 ^ s.cfg.wTs) (risen ((t + lo) % 2 ^ s.cfg.wTs) s) = pulsed t (lo, hi) s := by
    rw [fallen, measured_eq (s := risen _ s) hhi.2 hfall, risen, measured_eq hlo.2 hrise]
    rfl
  calc execAll (train s.cfg.wTs t ((lo, hi) :: pulses)) s
      = execAll (.edgeF ((t + lo + hi) % 2 ^ s.cfg.wTs) :: train s.cfg.wTs (t + lo + hi) pulses)
          (risen ((t + lo) % 2 ^ s.cfg.wTs) s) := by
        rw [← effect_edgeR_of_accepted hlow]
        exact execAll_cons_of_good hg _ _
    _ = execAll (train s.cfg.wTs (t + lo + hi) pulses) (afterPulse t (lo, hi) s) := by
        rw [execAll_cons_of_good hgood, effect_edgeF_of_accepted hhigh, hpulsed]
        rfl

/-- Half-periods inside the windows are recorded without loss (R74, R84). -/
theorem carriesSymbol_pulsed (hc : cfgValid s.cfg = true) {b : Symbol} (h : PulseCarries s.cfg b pulse) :
    CarriesSymbol s.cfg b (pulsed t pulse s).periodLow.toNat (pulsed t pulse s).periodHigh.toNat := by
  obtain ⟨-, ⟨-, hshort, -, hlong, -⟩, -⟩ := of_decide_eq_true hc
  have fits {p : Nat} (hp : inShort s.cfg p = true ∨ inLong s.cfg p = true) : (saturate p).toNat = p := by
    rw [inShort_iff, inLong_iff] at hp
    rw [saturate_toNat]
    omega
  obtain ⟨-, -, h⟩ := h
  cases b with
  | false => exact ⟨(fits (.inl h.1)).symm ▸ h.1, (fits (.inr h.2)).symm ▸ h.2⟩
  | true => exact ⟨(fits (.inr h.1)).symm ▸ h.1, (fits (.inl h.2)).symm ▸ h.2⟩

theorem classify_of_carriesSymbol {c : Cfg} (hc : cfgValid c = true) {b : Symbol} {pl ph : Nat}
    (h : CarriesSymbol c b pl ph) : classify c pl ph = .sym b := by
  cases b with
  | false => exact classify_short_long h.1 h.2
  | true => exact classify_long_short hc h.1 h.2

theorem afterPulse_of_symbol (h : AtTime c t s) (hr : s.state = .reading) {b : Symbol}
    (hb : PulseCarries c b pulse) : afterPulse t pulse s = pair b (pulsed t pulse s) := by
  obtain ⟨hg, rfl, -⟩ := h
  have hc := cfgValid_of_good hg
  rw [afterPulse, classifyFalling_of_reading (by exact hr), pulsed_cfg,
    classify_of_carriesSymbol hc (carriesSymbol_pulsed hc hb)]
  rfl

/-- A pilot starts a frame in `Idle` and restarts it in `Reading`, to the same state (R87, R90). -/
theorem afterPulse_of_pilot (h : AtTime c t s) (hd : s.state ≠ .done) (hp : PulseIsPilot c pulse) :
    afterPulse t pulse s = enterReading (pulsed t pulse s) := by
  obtain ⟨hg, rfl, -⟩ := h
  have hc := cfgValid_of_good hg
  obtain ⟨-, -, hlow, hhigh⟩ := hp
  obtain ⟨-, ⟨-, hshort, -⟩, -⟩ := of_decide_eq_true hc
  have hpilot : CarriesPilot s.cfg (pulsed t pulse s).periodLow.toNat (pulsed t pulse s).periodHigh.toNat := by
    refine ⟨(saturate_toNat pulse.1).symm ▸ isPilot_iff.1 hlow, ?_⟩
    have hfits : min pulse.2 65535 = pulse.2 := by
      have := inShort_iff.1 hhigh
      omega
    exact ((saturate_toNat pulse.2).trans hfits).symm ▸ hhigh
  cases hs : s.state with
  | done => exact absurd hs hd
  | idle => rw [afterPulse, classifyFalling_of_idle (by exact hs), pilotCheck_of_pilot hpilot]
  | reading =>
    have hsame : enterReading (pulsed t pulse s) = resync (pulsed t pulse s) := by
      rw [enterReading, ← hs]
      rfl
    rw [afterPulse, classifyFalling_of_reading (by exact hs), pulsed_cfg, classify_of_pilot hc hpilot, hsame]
    rfl

end

/-- Settles O47: such a pulse is a pilot, since its low is recorded as 65535. -/
theorem saturatedLowIsPilot : Obligations.SaturatedLowIsPilot := by
  intro s lo hi hg hd hpm hlow hlo hhi hshort
  have htrain : expandSym s.cfg.wTs s.lastEventTime lo hi = train s.cfg.wTs s.lastEventTime [(lo, hi)] := rfl
  have hat := atTime_self hg
  have hpilot : PulseIsPilot s.cfg (lo, hi) := ⟨hlo, hhi, isPilot_iff.2 (by rwa [Nat.min_eq_right hlow]), hshort⟩
  refine ⟨enterReading (pulsed s.lastEventTime (lo, hi) s), ?_, rfl, rfl, rfl⟩
  rw [htrain, deliver_eq_execAll train_wellFormed, execAll_train_cons hat hd hlo hhi,
    afterPulse_of_pilot hat hd hpilot]
  rfl

/-! ### The bits of a frame -/

/-- The bits `bits` have been decoded into `s`, from the start of the frame. -/
structure Decoded (bits : List BitSpec) (s : State) : Prop where
  index : s.bitIndex.toNat = bits.length
  state : s.state = if bits.length = 20 then .done else .reading
  stored : ∀ k t, bits[k]? = some (.payload t) → bufRead s.valueBuf k = triValue t ∧ bufRead s.zBuf k = triZ t

theorem Decoded.reading {bits : List BitSpec} {s : State} (h : Decoded bits s) (hlen : bits.length < 20) :
    s.state = .reading :=
  h.state.trans (if_neg hlen.ne)

/-- The two symbols of a payload bit are its pair (R57, R95). -/
theorem payloadTri_of_symbols {t : Tri} {x y : Symbol} (h : (BitSpec.payload t).symbols = [x, y]) :
    payloadTri x y = some t := by
  cases t <;> cases h <;> rfl

theorem getElem?_concat_cases {α : Type} {l : List α} {a b : α} {k : Nat} (h : (l ++ [a])[k]? = some b) :
    (k < l.length ∧ l[k]? = some b) ∨ (k = l.length ∧ b = a) := by
  rcases Nat.lt_trichotomy k l.length with hk | rfl | hk
  · exact .inl ⟨hk, by rwa [List.getElem?_append_left hk] at h⟩
  · rw [List.getElem?_concat_length] at h
    exact .inr ⟨rfl, (Option.some.inj h).symm⟩
  · rw [List.getElem?_eq_none (by simp; omega)] at h
    cases h

section
variable {bits : List BitSpec} {s : State}

/-- A sync pair in a sync place decodes a sync bit, which stores nothing (R94). -/
theorem decoded_sync (h : Decoded bits s) (hlen : bits.length < 2) (hhalf : s.halfSymbolPending = true)
    (hp : s.pendingSymbol = false) :
    Decoded (bits ++ [.sync]) (pair true s) ∧ (pair true s).halfSymbolPending = false := by
  have hpair : pair true s = advance (clearHalf s) := by
    rw [pair_of_sync true hhalf (h.index ▸ hlen), hp]
    rfl
  have hsucc := bitIndex_succ (k := s.bitIndex) (by rw [h.index]; omega)
  rw [hpair]
  refine ⟨⟨?_, ?_, fun k t hk => ?_⟩, rfl⟩
  · rw [advance_bitIndex, clearHalf_bitIndex, hsucc, h.index, List.length_append, List.length_singleton]
  · rw [List.length_append, List.length_singleton, if_neg (by omega)]
    exact h.reading (by omega)
  · rcases getElem?_concat_cases hk with ⟨-, hk⟩ | ⟨-, hk⟩
    · exact h.stored k t hk
    · cases hk

/-- A payload pair in a payload place stores its bit (R95 to R97). -/
theorem decoded_payload (h : Decoded bits s) (hlow : 2 ≤ bits.length) (hlen : bits.length < 20)
    (hhalf : s.halfSymbolPending = true) {y : Symbol} {t : Tri} (ht : payloadTri s.pendingSymbol y = some t) :
    Decoded (bits ++ [.payload t]) (pair y s) ∧ (pair y s).halfSymbolPending = false := by
  have hle : s.bitIndex.toNat ≤ 19 := by rw [h.index]; omega
  have hlt : s.bitIndex.toNat < 24 := by omega
  rw [pair_of_payload y hhalf (h.index ▸ hlow), payloadBit_of_some ht, complete_stored t hle]
  refine ⟨⟨?_, ?_, fun k t' hk => ?_⟩, rfl⟩
  · exact (bitIndex_succ hle).trans (by rw [h.index, List.length_append, List.length_singleton])
  · simp only [h.index, h.reading hlen, List.length_append, List.length_singleton, Nat.reduceEqDiff]
  · show bufRead (bufWrite s.valueBuf s.bitIndex.toNat (triValue t)) k = _ ∧
      bufRead (bufWrite s.zBuf s.bitIndex.toNat (triZ t)) k = _
    rw [bufRead_bufWrite _ _ hlt, bufRead_bufWrite _ _ hlt, h.index]
    rcases getElem?_concat_cases hk with ⟨hlt', hk⟩ | ⟨rfl, heq⟩
    · rw [if_neg hlt'.ne, if_neg hlt'.ne]
      exact h.stored k t' hk
    · cases heq
      rw [if_pos rfl, if_pos rfl]
      exact ⟨rfl, rfl⟩

/-- The second symbol of a bit in its place decodes the bit: sync bits stand in the first two places. -/
theorem decoded_pair (h : Decoded bits s) (hlen : bits.length < 20) (hhalf : s.halfSymbolPending = true)
    {b : BitSpec} (hplace : b = .sync ↔ bits.length < 2) {y : Symbol} (hb : b.symbols = [s.pendingSymbol, y]) :
    Decoded (bits ++ [b]) (pair y s) ∧ (pair y s).halfSymbolPending = false := by
  cases b with
  | sync =>
    simp only [BitSpec.symbols, List.cons.injEq, and_true] at hb
    obtain ⟨hp, rfl⟩ := hb
    exact decoded_sync h (hplace.1 rfl) hhalf hp.symm
  | payload t =>
    have hlow : ¬ bits.length < 2 := fun h => nomatch hplace.2 h
    exact decoded_payload h (by omega) hlen hhalf (payloadTri_of_symbols hb)

/-- The two pulses of a bit in its place decode the bit. -/
theorem decoded_afterPulses {c : Cfg} {t : Nat} (hat : AtTime c t s) (h : Decoded bits s) (hlen : bits.length < 20)
    (hhalf : s.halfSymbolPending = false) {b : BitSpec} (hplace : b = .sync ↔ bits.length < 2) {x y : Symbol}
    (hb : b.symbols = [x, y]) {p q : Nat × Nat} (hp : PulseCarries c x p) (hq : PulseCarries c y q) :
    (afterPulse t p s).state = .reading ∧
      Decoded (bits ++ [b]) (afterPulse (t + p.1 + p.2) q (afterPulse t p s)) ∧
      (afterPulse (t + p.1 + p.2) q (afterPulse t p s)).halfSymbolPending = false := by
  have hfirst : afterPulse t p s = capture x (pulsed t p s) := by
    rw [afterPulse_of_symbol hat (h.reading hlen) hp, pair_of_no_half x (by exact hhalf)]
  have hr : (afterPulse t p s).state = .reading := by
    rw [hfirst]
    exact h.reading hlen
  have hcaptured : Decoded bits (pulsed (t + p.1 + p.2) q (capture x (pulsed t p s))) := ⟨h.index, h.state, h.stored⟩
  rw [afterPulse_of_symbol (atTime_afterPulse hat) hr hq, hfirst]
  exact ⟨h.reading hlen, decoded_pair hcaptured hlen rfl hplace hb⟩

end

/-- The pulses of the remaining bits `rest`, each in its place, complete and decode them. -/
theorem execAll_bits {c : Cfg} : ∀ (rest : List BitSpec) {bits : List BitSpec} {s : State} {t : Nat}
    {pulses : List (Nat × Nat)}, AtTime c t s → Decoded bits s → s.halfSymbolPending = false →
    (∀ k b, (bits ++ rest)[k]? = some b → (b = .sync ↔ k < 2)) → (bits ++ rest).length ≤ 20 →
    List.Forall₂ (PulseCarries c) (rest.flatMap BitSpec.symbols) pulses →
    ∃ u, execAll (train c.wTs t pulses) s = .next u ∧ good u = true ∧ Decoded (bits ++ rest) u
  | [], bits, s, t, pulses, hat, hdec, _, _, _, hcarry => by
    cases hcarry
    exact ⟨s, rfl, hat.good, by rwa [List.append_nil]⟩
  | b :: rest, bits, s, t, pulses, hat, hdec, hhalf, hplace, hlen, hcarry => by
    obtain ⟨x, y, hb⟩ := b.symbols_pair
    rw [List.flatMap_cons, hb] at hcarry
    obtain ⟨p, _, hp, hcarry₁, rfl⟩ := List.forall₂_cons_left_iff.1 hcarry
    obtain ⟨q, pulses, hq, hcarry₂, rfl⟩ := List.forall₂_cons_left_iff.1 hcarry₁
    have hlt : bits.length < 20 := by
      rw [List.length_append, List.length_cons] at hlen
      omega
    have hhere : b = .sync ↔ bits.length < 2 := hplace bits.length b (by simp)
    rw [List.append_cons] at hplace hlen ⊢
    obtain ⟨hr, hdec', hhalf'⟩ := decoded_afterPulses hat hdec hlt hhalf hhere hb hp hq
    have hat' := atTime_afterPulse (pulse := p) hat
    rw [execAll_train_cons hat (by simp [hdec.reading hlt]) hp.1 hp.2.1,
      execAll_train_cons hat' (by simp [hr]) hq.1 hq.2.1]
    exact execAll_bits rest (atTime_afterPulse hat') hdec' hhalf' hplace hlen hcarry₂

/-! ### The frame of R115 -/

section
variable (word zm : BitVec 16) (t0 t1 : Tri)

/-- The payload bits of the frame, the trailer included. -/
def framePayload : List Tri := (List.range exposedBits).map (payloadOf word zm) ++ [t0, t1]

theorem frameSpec_eq : frameSpec word zm t0 t1 = [.sync, .sync] ++ (framePayload word zm t0 t1).map .payload := by
  simp [frameSpec, framePayload]

theorem frameSpec_length : (frameSpec word zm t0 t1).length = 20 := by
  simp [frameSpec_eq, framePayload]

theorem frameSpec_getElem?_add_two (k : Nat) :
    (frameSpec word zm t0 t1)[k + 2]? = ((framePayload word zm t0 t1)[k]?).map .payload := by
  rw [frameSpec_eq, ← List.getElem?_map]
  rfl

/-- The sync bits stand in the first two places and nowhere else. -/
theorem frameSpec_place {k : Nat} {b : BitSpec} (h : (frameSpec word zm t0 t1)[k]? = some b) : b = .sync ↔ k < 2 := by
  match k with
  | 0 => exact iff_of_true (Option.some.inj h).symm (by decide)
  | 1 => exact iff_of_true (Option.some.inj h).symm (by decide)
  | k + 2 =>
    rw [frameSpec_getElem?_add_two] at h
    obtain ⟨t, -, rfl⟩ := Option.map_eq_some_iff.1 h
    exact iff_of_false nofun (by omega)

theorem frameSpec_payload {i : Nat} (hi : i < 16) :
    (frameSpec word zm t0 t1)[i + 2]? = some (.payload (payloadOf word zm i)) := by
  rw [frameSpec_getElem?_add_two, framePayload, List.getElem?_append_left (by simpa using hi), List.getElem?_map,
    List.getElem?_range hi]
  rfl

theorem flatMap_symbols_length (l : List BitSpec) : (l.flatMap BitSpec.symbols).length = 2 * l.length := by
  induction l with
  | nil => rfl
  | cons b l ih =>
    obtain ⟨x, y, hb⟩ := b.symbols_pair
    rw [List.flatMap_cons, List.length_append, ih, hb, List.length_cons]
    exact Nat.add_comm 2 _

theorem frameSymbols_length : (frameSymbols word zm t0 t1).length = 40 := by
  rw [frameSymbols, flatMap_symbols_length, frameSpec_length]

end

/-- A stored payload bit of the frame, as the accessors see it: the floating flag, and the value where it does not
float. -/
theorem payloadOf_stored (word zm : BitVec 16) (i : Nat) :
    triZ (payloadOf word zm i) = zm.getLsbD i ∧
      triValue (payloadOf word zm i) = (word.getLsbD i && !zm.getLsbD i) := by
  rw [payloadOf]
  cases zm.getLsbD i <;> cases word.getLsbD i <;> exact ⟨rfl, rfl⟩

/-- What the reads answer on a frame of `word` and `zm` (R110 to R112). -/
theorem responses_of_decoded {word zm : BitVec 16} {t0 t1 : Tri} {u : State} (hg : good u = true)
    (h : Decoded (frameSpec word zm t0 t1) u) :
    u.state = .done ∧ response .isReady u = some 1 ∧
      response (.valueBits false) u = some (word &&& ~~~ zm) ∧ response (.valueBits true) u = some (word ||| zm) ∧
      response (.zMask true) u = some zm ∧ response (.zMask false) u = some (~~~ zm) := by
  have hd : u.state = .done := h.state.trans (if_pos (frameSpec_length word zm t0 t1))
  have hz {i : Nat} (hi : i < 16) : bufRead u.zBuf (exposedPos i) = zm.getLsbD i :=
    (h.stored _ _ (frameSpec_payload word zm t0 t1 hi)).2.trans (payloadOf_stored word zm i).1
  have hv {i : Nat} (hi : i < 16) : bufRead u.valueBuf (exposedPos i) = (word.getLsbD i && !zm.getLsbD i) :=
    (h.stored _ _ (frameSpec_payload word zm t0 t1 hi)).1.trans (payloadOf_stored word zm i).2
  have hready : readyRsp u = 1 := (readyRsp_eq u).trans (if_pos hd)
  simp only [response_of_good hg, effect, respond_rsp, Option.some.injEq]
  refine ⟨hd, hready, ?_, ?_, ?_, ?_⟩ <;> refine collect_eq fun i hi => ?_
  · rw [valueBit, hz hi, hv hi, BitVec.getLsbD_and, BitVec.getLsbD_not]
    cases zm.getLsbD i <;> simp [hi]
  · rw [valueBit, hz hi, hv hi, BitVec.getLsbD_or]
    cases zm.getLsbD i <;> simp
  · rw [maskBit, hz hi]
    cases zm.getLsbD i <;> rfl
  · rw [maskBit, hz hi, BitVec.getLsbD_not]
    cases zm.getLsbD i <;> simp [hi]

/-- Settles O48: the pilot starts the frame with nothing decoded, the forty pulses decode its twenty bits, and the reads
show the sixteen that are exposed. -/
theorem frameRoundTrip : Obligations.FrameRoundTrip := by
  intro s word zm t0 t1 pilot pulses hg hd hpilot hcarry
  have hat := atTime_self hg
  have hstart := afterPulse_of_pilot hat hd hpilot
  have hbegun : Decoded [] (afterPulse s.lastEventTime pilot s) := by
    rw [hstart]
    exact ⟨rfl, rfl, nofun⟩
  have hhalf : (afterPulse s.lastEventTime pilot s).halfSymbolPending = false := by
    rw [hstart]
    rfl
  obtain ⟨u, hrun, hgood, hdec⟩ := execAll_bits (frameSpec word zm t0 t1) (atTime_afterPulse hat) hbegun hhalf
    (fun _ _ => frameSpec_place word zm t0 t1) (frameSpec_length word zm t0 t1).le hcarry
  refine ⟨?_, u, ?_, responses_of_decoded hgood hdec⟩
  · rw [train_length, List.length_cons, ← hcarry.length_eq, frameSymbols_length]
  · rw [deliver_eq_execAll train_wellFormed, execAll_train_cons hat hd hpilot.1 hpilot.2.1]
    exact hrun

end Sys2Proof.Machine
end
